-- ==== Sys2Proof/Word.lean ====
section
/-! DEFINITION. The word types of the part: the widths in which the link and the service messages carry
their values (00_scope.md, Rates and Units of Time; 10_frame_and_message_layouts.md). -/

namespace Sys2Proof

/-- A byte: header bytes, frame checks and node numbers (R190, R191). -/
abbrev Byte := BitVec 8

/-- A 16-bit service word (R193). -/
abbrev Word := BitVec 16

/-- A 24-bit slot word of a link frame: an audio slot or a status slot (R190). -/
abbrev Slot := BitVec 24

/-- A 32-bit quantity: the block counter, program ids and positions (R191, R193). -/
abbrev Long := BitVec 32

end Sys2Proof
end

