-- ==== Sys2Proof/Syntax.lean ====
section
/-! DEFINITION. The commands of the part: one constructor of `Instr` for each row of spec/opcode_table.json, and the
operand types they carry. A command is an event at the part (a frame arriving, a master frame, a boundary, power), one of
the part's own timed or queued steps, or a service request with the operands its catalogue entry lists (section 9.6). -/

namespace Sys2Proof

/-! ### Operands that come over the links -/

/-- A link frame with `n` slot words: sixteen in a forward frame, one in a return frame (R190). -/
structure LinkFrame (n : Nat) where
  header : BitVec 24
  slots : Vector Slot n
  service : Word
  check : Byte
deriving DecidableEq, Repr

/-! ### Named values of the requests -/

/-- The sixteen speaker roles, in the order of the Speaker Roles table (00_scope.md). -/
inductive Role where
  | l | c | r | lfe | ls | rs | lss | rss | lrs | rrs | bs | ltop | rtop | hi | vn | aux
deriving DecidableEq, Repr

/-- The three screen states (R44). -/
inductive ScreenState where
  | dark | standby | running
deriving DecidableEq, Repr

/-- The role that a source request names (R51). -/
inductive SourceRole where
  | primary | alternate
deriving DecidableEq, Repr

/-- The two equalisation banks of a screen (R84). -/
inductive Bank where
  | a | b
deriving DecidableEq, Repr

/-- The two matrices of a format record (R64). -/
inductive Matrix where
  | a | b
deriving DecidableEq, Repr

/-- The nine alarm classes, in the order of the table of section 6.2. -/
inductive AlarmClass where
  | clip | over | silent | source | slip | amp | link | cue | format
deriving DecidableEq, Repr

/-- The two modes of a contact line (R156). -/
inductive LineMode where
  | cue | alarm
deriving DecidableEq, Repr

/-- The three drives of a contact line (R157). -/
inductive Drive where
  | closeLine
  | openLine
  | pulse (ms : Nat)
deriving DecidableEq, Repr

/-- The eight cue actions with their operands (section 7.4). A FORMAT action with no tag is a release (R145). -/
inductive CueAction where
  | contact (line : Nat) (drive : Drive)
  | fade (target duration : Nat)
  | mute (on : Bool)
  | eqBank (bank : Bank)
  | format (tag : Option Nat)
  | source (role : SourceRole)
  | quiet (duration : Nat)
  | mark (level : Nat)
deriving DecidableEq, Repr

/-! ### Operand records -/

/-- What every request carries around its operands: the port it arrived on, its source node, its tag and its screen
number (R193). -/
structure ReqHead where
  port : Fin 12
  source : Byte
  tag : Word
  screen : BitVec 4
deriving DecidableEq, Repr

/-- The four fields of a speaker map item as a request carries them (R60). -/
structure MapOperand where
  role : Option Role
  expected : Bool
  partner : Option Nat
  gain : Nat
deriving DecidableEq, Repr

/-- One configuration item of SCREEN-SET, in the order of the table of R60. -/
inductive ScreenItem where
  | primary (port : Option Nat)
  | alternate (port : Option Nat)
  | follow (on : Bool)
  | fallback (tag : Nat)
  | override (tag : Option Nat)
  | mapEntry (channel : Nat) (entry : MapOperand)
  | foldEnable (on : Bool)
  | meterSpeed (speed : Nat)
  | window (ms : Nat)
deriving DecidableEq, Repr

/-- The steering operands of FORMAT-LOAD BEGIN (R67). -/
structure SteeringOperand where
  first : Nat
  second : Nat
  shift : Nat
  slew : Nat
deriving DecidableEq, Repr

/-- The operands of FORMAT-LOAD BEGIN (R67). The row count is the number of roles. The steered flag is the presence of
the steering operands. -/
structure FormatHeader where
  tag : Nat
  inputs : Nat
  steering : Option SteeringOperand
  roles : List Role
deriving DecidableEq, Repr

/-- The two forms of FORMAT-READ (R82). -/
inductive FormatQuery where
  | tag (tag : Nat) (row : Option (Nat × Matrix))
  | screen
deriving DecidableEq, Repr

/-- The five coefficients of a biquad section, each standing for value ÷ 1,048,576 (R84). -/
structure Coefs where
  b0 : Int
  b1 : Int
  b2 : Int
  a1 : Int
  a2 : Int
deriving DecidableEq, Repr

/-- The three forms of EQ-READ (R106). -/
inductive EqQuery where
  | screen
  | channel (bank : Bank) (channel first : Nat)
  | part
deriving DecidableEq, Repr

/-- The record that ALARM-SET carries for a class (R115). -/
structure AlarmOperand where
  enable : Bool
  level : Nat
  threshold : Int
  count : Nat
  window : Nat
  release : Nat
  quiet : Bool
deriving DecidableEq, Repr

/-- The cue that CUE-LOAD carries, with its fire-if-due flag (R149). -/
structure CueOperand where
  id : Nat
  program : Long
  trigger : Long
  action : CueAction
  catchUp : Bool
  fireIfDue : Bool
deriving DecidableEq, Repr

/-- A list of cue ids, or the word all (R151, R153). -/
inductive CueSelection where
  | ids (ids : List Nat)
  | all
deriving DecidableEq, Repr

/-- The four forms of CUE-READ (R154). -/
inductive CueQuery where
  | screen
  | cue (id : Nat)
  | list (index : Nat)
  | part
deriving DecidableEq, Repr

/-- The two forms of NOTICE-READ (R173). -/
inductive NoticeQuery where
  | screen
  | port (port : Nat)
deriving DecidableEq, Repr

/-- The route that NOTICE-ROUTE carries in its screen form. G and W come together or not at all (R166). -/
structure RouteOperand where
  port : Nat
  node : Byte
  share : Option (Nat × Nat)
deriving DecidableEq, Repr

/-! ### The commands -/

/-- One constructor for each row of spec/opcode_table.json. The numeric operands of a request are the values its service
words hold; a reading request ends in its part index (R181). -/
inductive Instr where
  /-- POWER_ON: power is applied with the four strap inputs at `straps` (R175). -/
  | powerOn (straps : BitVec 4)
  /-- PART_RESET_TAKES_EFFECT (R189). -/
  | partResetTakesEffect
  /-- PROGRAM_FRAME_ARRIVAL: a forward frame arrives on a program port (R1). -/
  | programFrameArrival (port : Fin 12) (frame : LinkFrame 16)
  /-- MASTER_FRAME (R12). -/
  | masterFrame
  /-- ARBITER_GRANT at a program port's return direction (R170). -/
  | arbiterGrant (port : Fin 12)
  /-- MESSAGE_SENT at a program port's return direction (R172). -/
  | messageSent (port : Fin 12)
  /-- NOTICE_CHOICE of a screen (R162). -/
  | noticeChoice (screen : Fin 8)
  /-- RACK_FRAME_ARRIVAL: a return frame arrives on a screen port (R30). -/
  | rackFrameArrival (screen : Fin 8) (frame : LinkFrame 1)
  /-- MASTER_BLOCK_BOUNDARY (R109). -/
  | masterBlockBoundary
  /-- CROSSFADE_END of a screen (R99). -/
  | crossfadeEnd (screen : Fin 8)
  /-- QUALIFY_WINDOW_EXPIRY of one alarm of a screen (R117). -/
  | qualifyWindowExpiry (screen : Fin 8) (alarm : Fin 54)
  /-- RELEASE_COMPLETE of one alarm of a screen (R117). -/
  | releaseComplete (screen : Fin 8) (alarm : Fin 54)
  /-- HOLDOVER_EXPIRY of a program port (R5). -/
  | holdoverExpiry (port : Fin 12)
  /-- FAST_DROP_WINDOW_CLOSE of a program port (R9). -/
  | fastDropWindowClose (port : Fin 12)
  /-- EXCHANGE_TIMEOUT of a screen port (R35). -/
  | exchangeTimeout (screen : Fin 8)
  /-- SERVICE_TIMEOUT of a program port (R18). -/
  | serviceTimeout (port : Fin 12)
  /-- RESPONSE_EXPIRY at a program port's response queue (R168). -/
  | responseExpiry (port : Fin 12)
  /-- ARBITER_RELOAD of a program port's arbiter (R169). -/
  | arbiterReload (port : Fin 12)
  /-- QUIET_INTERVAL_END of a screen (R148). -/
  | quietIntervalEnd (screen : Fin 8)
  /-- CONTACT_PULSE_END of a contact line (R157). -/
  | contactPulseEnd (line : Fin 16)
  | partStatus (h : ReqHead) (part : Nat)
  | partReset (h : ReqHead)
  | lockTake (h : ReqHead)
  | lockFree (h : ReqHead) (force : Bool)
  | portRead (h : ReqHead) (port part : Nat)
  | portSet (h : ReqHead) (port : Nat) (enable : Bool) (holdover dropCount dropWindow : Nat) (dropEnable : Bool)
  | portClear (h : ReqHead) (port : Nat)
  | portRestart (h : ReqHead) (port : Nat)
  | screenRead (h : ReqHead) (part : Nat)
  | screenSet (h : ReqHead) (items : List ScreenItem)
  | screenState (h : ReqHead) (state : ScreenState)
  | screenSource (h : ReqHead) (role : SourceRole)
  | screenReset (h : ReqHead)
  | formatLoadBegin (h : ReqHead) (header : FormatHeader)
  | formatLoadRows (h : ReqHead) (tag row : Nat) (matrix : Matrix) (coefs : List Int)
  | formatLoadCommit (h : ReqHead) (tag : Nat)
  | formatLoadClear (h : ReqHead) (tag : Nat)
  | formatRead (h : ReqHead) (query : FormatQuery) (part : Nat)
  | eqLoadHead (h : ReqHead) (bank : Bank) (channel count delay trim : Nat)
  | eqLoadSections (h : ReqHead) (bank : Bank) (channel first : Nat) (sections : List Coefs)
  | eqRead (h : ReqHead) (query : EqQuery) (part : Nat)
  | eqSelect (h : ReqHead) (bank : Bank)
  | fade (h : ReqHead) (target duration : Nat)
  | mute (h : ReqHead) (on : Bool)
  | meterRead (h : ReqHead) (part : Nat)
  | alarmSet (h : ReqHead) (cls : AlarmClass) (record : AlarmOperand)
  | alarmRead (h : ReqHead) (id : Option Nat) (part : Nat)
  | alarmAck (h : ReqHead) (ids : List Nat)
  | alarmTest (h : ReqHead) (ids : List Nat)
  | cueLoad (h : ReqHead) (cue : CueOperand)
  | cueDelete (h : ReqHead) (which : CueSelection)
  | cueRead (h : ReqHead) (query : CueQuery) (part : Nat)
  | cueFire (h : ReqHead) (id : Nat)
  | cueRearm (h : ReqHead) (which : CueSelection)
  | contactSet (h : ReqHead) (line : Nat) (owner : Option Nat) (mode : LineMode) (threshold : Nat)
  | contactDrive (h : ReqHead) (line : Nat) (drive : Drive)
  | noticeDone (h : ReqHead) (tag : Option Word)
  | noticeRead (h : ReqHead) (query : NoticeQuery) (part : Nat)
  | noticeRouteScreen (h : ReqHead) (route : Option RouteOperand)
  | noticeRoutePort (h : ReqHead) (port count weight interval : Nat)
  /-- UNKNOWN_REQUEST: a request whose kind or screen number names nothing of the catalogue (R177). -/
  | unknownRequest (h : ReqHead) (kind : BitVec 11) (response : Bool)
  /-- POWER_LOSS: power is removed (R156). -/
  | powerLoss
deriving DecidableEq, Repr

end Sys2Proof
end

