-- ==== Sys2Proof/WellFormed.lean ====
section
/-! DEFINITION. Which commands are well formed: a request's operands are values that its payload words can code (R193), its
payload holds at most 60 words (but for EQ-LOAD SECTIONS, whose six sections of R103 take 63: assumption log 14), and its screen number is one that its form accepts where the form decides the coding. A
well-formed command may still be refused by the part. -/

namespace Sys2Proof

/-- A quantity that one service word holds (R193). -/
def wordFits (n : Nat) : Bool := decide (n ≤ 65535)

/-- A 32-bit quantity (R193). -/
def longFits (n : Nat) : Bool := decide (n < 4294967296)

/-- An optional quantity of one word. -/
def optFits : Option Nat → Bool
  | some n => wordFits n
  | none => true

/-- A 16-bit coefficient in two's complement (R193). -/
def coefFits (x : Int) : Bool := decide (-32768 ≤ x ∧ x ≤ 32767)

/-- A 24-bit biquad coefficient (R84, R193). -/
def biquadFits (x : Int) : Bool := decide (-8388608 ≤ x ∧ x ≤ 8388607)

/-- A 32-bit two's complement value (R193). -/
def sampleFits (x : Int) : Bool := decide (-2147483648 ≤ x ∧ x ≤ 2147483647)

/-- The five coefficients of a section (R84). -/
def Coefs.wf (x : Coefs) : Bool :=
  biquadFits x.b0 && biquadFits x.b1 && biquadFits x.b2 && biquadFits x.a1 && biquadFits x.a2

/-- A screen number of 0 to 7, on a request whose operands take the screen form. -/
def ReqHead.onScreen (h : ReqHead) : Bool := decide (h.screen.toNat < 8)

/-- A drive's operands (R143). -/
def Drive.wf : Drive → Bool
  | .closeLine | .openLine => true
  | .pulse ms => wordFits ms

/-- A cue action's operands (R149). -/
def CueAction.wf : CueAction → Bool
  | .contact line d => wordFits line && d.wf
  | .fade t d => wordFits t && wordFits d
  | .format tag => optFits tag
  | .quiet d => longFits d
  | .mark level => wordFits level
  | .mute _ | .eqBank _ | .source _ => true

/-- A SCREEN-SET item's value (R60). -/
def ScreenItem.wf : ScreenItem → Bool
  | .primary p | .alternate p | .override p => optFits p
  | .fallback n | .meterSpeed n | .window n => wordFits n
  | .mapEntry channel e => wordFits channel && optFits e.partner && wordFits e.gain
  | .follow _ | .foldEnable _ => true

/-- How many payload words an optional quantity takes (R193). -/
def optSize : Option Nat → Nat
  | some _ => 2
  | none => 1

/-- How many payload words an item takes, with the word that names it (R193). -/
def ScreenItem.size : ScreenItem → Nat
  | .primary p | .alternate p | .override p => 1 + optSize p
  | .mapEntry _ e => 4 + (if e.role.isSome then 2 else 1) + optSize e.partner
  | .follow _ | .fallback _ | .foldEnable _ | .meterSpeed _ | .window _ => 2

/-- FORMAT-LOAD BEGIN's operands (R67). -/
def FormatHeader.wf (x : FormatHeader) : Bool :=
  wordFits x.tag && wordFits x.inputs && decide (x.roles.length ≤ 52) &&
    (match x.steering with
      | some st => wordFits st.first && wordFits st.second && wordFits st.shift && wordFits st.slew
      | none => true)

/-- ALARM-SET's record (R115). -/
def AlarmOperand.wf (x : AlarmOperand) : Bool :=
  wordFits x.level && sampleFits x.threshold && wordFits x.count && wordFits x.window && wordFits x.release

/-- A list of one-word entries that a payload holds beside `other` words (R179, R193). -/
def listFits (other : Nat) (l : List Nat) : Bool := l.all wordFits && decide (other + l.length ≤ 60)

/-- A selection of cues (R151). -/
def CueSelection.wf : CueSelection → Bool
  | .ids l => listFits 1 l
  | .all => true

/-- A kind and screen number that make a request an unknown one: a response mark, a kind outside the catalogue's 1 to 39, or
a screen number of 8 to 14 (R177, R193). -/
def unknownWf (h : ReqHead) (kind : BitVec 11) (response : Bool) : Bool :=
  response || decide (kind.toNat = 0) || decide (39 < kind.toNat) ||
    (decide (8 ≤ h.screen.toNat) && decide (h.screen.toNat ≤ 14))

/-- Whether a command is well formed. -/
def Instr.wf : Instr → Bool
  | .powerOn _ | .partResetTakesEffect | .programFrameArrival _ _ | .masterFrame | .arbiterGrant _ | .messageSent _
  | .noticeChoice _ | .rackFrameArrival _ _ | .masterBlockBoundary | .crossfadeEnd _ | .qualifyWindowExpiry _ _
  | .releaseComplete _ _ | .holdoverExpiry _ | .fastDropWindowClose _ | .exchangeTimeout _ | .serviceTimeout _
  | .responseExpiry _ | .arbiterReload _ | .quietIntervalEnd _ | .contactPulseEnd _ | .powerLoss => true
  | .partStatus _ part | .screenRead _ part | .meterRead _ part => wordFits part
  | .partReset _ | .lockTake _ | .lockFree _ _ | .screenState _ _ | .screenSource _ _ | .screenReset _ | .eqSelect _ _
  | .mute _ _ | .noticeDone _ _ => true
  | .portRead _ port part => wordFits port && wordFits part
  | .portSet _ port _ holdover dropCount dropWindow _ =>
    wordFits port && wordFits holdover && wordFits dropCount && wordFits dropWindow
  | .portClear _ port | .portRestart _ port => wordFits port
  | .screenSet _ items => items.all ScreenItem.wf && decide ((items.map ScreenItem.size).sum ≤ 60)
  | .formatLoadBegin _ header => header.wf
  | .formatLoadRows _ tag row _ coefs => wordFits tag && wordFits row && coefs.all coefFits && decide (coefs.length ≤ 57)
  | .formatLoadCommit _ tag | .formatLoadClear _ tag => wordFits tag
  | .formatRead h query part =>
    wordFits part && (match query with
      | .tag tag row => wordFits tag && !h.onScreen && (match row with
        | some (k, _) => wordFits k
        | none => true)
      | .screen => h.onScreen)
  | .eqLoadHead _ _ channel count delay trim => wordFits channel && wordFits count && wordFits delay && wordFits trim
  | .eqLoadSections _ _ channel first sections =>
    wordFits channel && wordFits first && sections.all Coefs.wf && decide (sections.length ≤ 6)
  | .eqRead h query part =>
    wordFits part && (match query with
      | .screen => h.onScreen
      | .channel _ channel first => h.onScreen && wordFits channel && wordFits first
      | .part => !h.onScreen)
  | .fade _ target duration => wordFits target && wordFits duration
  | .alarmSet _ _ record => record.wf
  | .alarmRead _ id part => optFits id && wordFits part
  | .alarmAck _ ids | .alarmTest _ ids => listFits 0 ids
  | .cueLoad _ cue => wordFits cue.id && cue.action.wf
  | .cueDelete _ which | .cueRearm _ which => which.wf
  | .cueRead h query part =>
    wordFits part && (match query with
      | .screen => h.onScreen
      | .cue id => h.onScreen && wordFits id
      | .list first => h.onScreen && wordFits first
      | .part => !h.onScreen)
  | .cueFire _ id => wordFits id
  | .contactSet _ line owner _ threshold => wordFits line && optFits owner && wordFits threshold
  | .contactDrive _ line drive => wordFits line && drive.wf
  | .noticeRead h query part =>
    wordFits part && (match query with
      | .screen => h.onScreen
      | .port port => !h.onScreen && wordFits port)
  | .noticeRouteScreen h route =>
    decide (h.screen.toNat ≠ 15) && (match route with
      | some x => wordFits x.port && (match x.share with
        | some (g, w) => wordFits g && wordFits w
        | none => true)
      | none => true)
  | .noticeRoutePort h port count weight interval =>
    decide (h.screen.toNat = 15) && wordFits port && wordFits count && wordFits weight && wordFits interval
  | .unknownRequest h kind response => unknownWf h kind response

end Sys2Proof
end

