-- ==== Sys2Proof/Decode.lean ====
section
/-! DEFINITION. The commands that a bare word spells. The table gives no row any bits (spec/opcode_table.json: every row's
`fields` is empty), since a command of this part is an event or a service message and not an opcode; so no word spells a
command. How a service message spells its request is Machine/Intake.lean's. -/

namespace Sys2Proof

/-- The command that a word of `nbits` bits spells by the table's bits: none, for the table gives none. -/
def decodeTableWord (_nbits _w : Nat) : Option Instr := none

end Sys2Proof
end

