-- ==== Sys2Proof/Config.lean ====
section
/-! DEFINITION. What one part fixes and what the spec leaves open. The opaque constants have no body:
no proof can see their values, and a statement about them holds for every value. -/

namespace Sys2Proof.Config

/-- The revision number of the part: `a 16-bit value fixed in the part` (R187). The spec gives no number. -/
opaque revision : Word

/-- FREE VALUE (assumption log 6). The frame index that the capture record takes for a CHECK ERROR frame that
arrives where no index is expected: the frame's own index is not examined (R1), and R5, R17 and R21 state no
other. The argument is the state's `freeCount`. -/
opaque freeIndex : Nat → Option Nat

/-- FREE VALUE (assumption log 7). The inferred position one beyond the top of the 32-bit range: R16 forms `the base
position plus 1` and states no result there. The argument is the state's `freeCount`. -/
opaque freePosition : Nat → Long

end Sys2Proof.Config
end

