-- ==== Sys2Proof/Machine/Types.lean ====
section
/-! DEFINITION. The records that State is made of, block by block, as the chapters of the spec name them. All are plain
data. A field's docstring names the rule that gives it; where a field is the model's own, the docstring says so. -/

namespace Sys2Proof.Machine

/-- The sixteen slots of a forward frame. -/
abbrev Slots := Vector Slot 16

/-! ### Program ports -/

/-- The six states of a program port (section 1.2). `brk` is BREAK. -/
inductive PortState where
  | down | hunt | locked | holdover | lost | brk
deriving DecidableEq, Repr

/-- The kinds of the first-error capture record (R21). -/
inductive ErrorKind where
  | check | sync | descriptor | service
deriving DecidableEq, Repr

/-- A full first-error capture record (R21). -/
structure Capture where
  kind : ErrorKind
  index : Option Nat
  counter : Long
  lastGood : Option Long
  more : Bool
deriving DecidableEq, Repr

/-- The five settings of PORT-SET (R22). -/
structure PortSettings where
  enable : Bool
  holdover : Nat
  dropCount : Nat
  dropWindow : Nat
  dropEnable : Bool
deriving DecidableEq, Repr

/-- The seven counters of a port (R20). -/
structure PortCounters where
  checkErrors : Nat
  slips : Nat
  recoveries : Nat
  fastDrops : Nat
  relocks : Nat
  stopEntries : Nat
  discarded : Nat
deriving DecidableEq, Repr

/-- An open fast-drop window (R9). -/
structure DropWindow where
  count : Nat
  left : Nat
deriving DecidableEq, Repr

/-- What a position update carries besides its port (R15). An inference base holds the same values (R15, R16). -/
structure Update where
  program : Long
  position : Long
  tag : Nat
  play : Bool
  posValid : Bool
  inferred : Bool
deriving DecidableEq, Repr

/-- The fields that a position lost may carry (R15, R58). -/
structure LostFields where
  program : Long
  tag : Nat
  play : Bool
  posValid : Bool
deriving DecidableEq, Repr

/-- A service message under assembly (R17). `ticks` counts the service ticks since its START word (R18). -/
structure Assembly where
  words : List Word
  source : Byte
  ticks : Nat
deriving DecidableEq, Repr

/-- One program port receiver (chapter 1). -/
structure Port where
  state : PortState
  settings : PortSettings
  goodRun : Nat
  missRun : Nat
  stopRun : Nat
  /-- The expected index, where one is kept (R1). -/
  expected : Option Nat
  window : Option DropWindow
  /-- The holdover count (R5). 0 where none runs. -/
  holdoverLeft : Nat
  /-- The elastic buffer, oldest entry first (R11). -/
  buffer : List Slots
  started : Bool
  lastFrame : Option Slots
  /-- The concealment register (R4). -/
  conceal : Slots
  /-- The descriptor attempt: the bytes of expected indices 0 onward, each known or unknown; none while waiting (R14). -/
  attempt : Option (List (Option Byte))
  base : Option Update
  badRun : Nat
  /-- Whether position lost has been raised since the later of the last good descriptor with POSITION-VALID and the entry
  to LOCKED (R16). -/
  lostRaised : Bool
  assembly : Option Assembly
  counters : PortCounters
  capture : Option Capture
  lastGood : Option Long
  lastTimedOut : Option Byte
  /-- The return frame last sent; none where the port sends nothing (R8). An output pin. -/
  sent : Option (LinkFrame 1)
deriving DecidableEq, Repr

/-! ### Return channel arbiters -/

/-- The requesters of an arbiter (R169). -/
inductive Requester where
  | resp
  | screen (n : Fin 8)
deriving DecidableEq, Repr

/-- A response waiting in a response queue (R168). `forReset` marks the response to a taken PART-RESET (R188). -/
structure Response where
  words : List Word
  placedAt : Long
  forReset : Bool
deriving DecidableEq, Repr

/-- A message on a return channel, with the number of its words sent (R172). -/
structure Sending where
  owner : Requester
  words : List Word
  sent : Nat
  forReset : Bool
deriving DecidableEq, Repr

/-- One return channel arbiter with its response queue (section 8.5). -/
structure Arbiter where
  interval : Nat
  nextInterval : Nat
  remainder : Nat
  respCount : Nat
  respWeight : Nat
  respLeft : Nat
  /-- The remaining guaranteed count of each screen; 0 for a screen not routed here (R166). -/
  screenLeft : Vector Nat 8
  lastGranted : Option Requester
  holder : Option Requester
  burst : Nat
  channel : Option Sending
  queue : List Response
  requestsDiscarded : Nat
  responsesExpired : Nat
  messagesAbandoned : Nat
deriving DecidableEq, Repr

/-! ### Screen ports -/

/-- The three link states of a screen port (chapter 2). -/
inductive LinkState where
  | hunt | exchange | up
deriving DecidableEq, Repr

/-- The four channel states of a rack (section 2.3). -/
inductive ChannelState where
  | ok | protect | fault | absent
deriving DecidableEq, Repr

/-- One screen port transmitter/receiver (chapter 2). -/
structure ScreenPort where
  link : LinkState
  goodRun : Nat
  missRun : Nat
  expected : Option Nat
  /-- The page attempt: the status slots of expected indices 0 onward, each known or unknown; none while idle (R33). -/
  attempt : Option (List (Option Slot))
  echo : Bool
  lastToggle : Bool
  identSeen : Bool
  /-- The exchange timer; 0 where it is stopped (R35). -/
  timer : Nat
  rackId : Option Word
  channelCount : Option Nat
  stored : Vector ChannelState 16
  presented : Vector ChannelState 16
  linkDrops : Nat
  timeouts : Nat
  /-- The forward frame last sent (R27). An output pin. -/
  sent : Option (LinkFrame 16)
deriving DecidableEq, Repr

/-! ### Screen contexts -/

/-- One speaker map entry (section 3.1). -/
structure MapEntry where
  role : Option Role
  expected : Bool
  partner : Option (Fin 16)
  gain : Nat
deriving DecidableEq, Repr

/-- The active source of a screen (section 3.1). -/
inductive ActiveSource where
  | primary | alternate | none
deriving DecidableEq, Repr

/-- A notice route (R166). -/
structure Route where
  port : Fin 12
  node : Byte
  count : Nat
  weight : Nat
deriving DecidableEq, Repr

/-- The screen record (section 3.1). -/
structure Context where
  state : ScreenState
  primary : Option (Fin 12)
  alternate : Option (Fin 12)
  follow : Bool
  fallback : Nat
  override : Option Nat
  map : Vector MapEntry 16
  foldEnable : Bool
  meterSpeed : Nat
  window : Nat
  route : Option Route
  active : ActiveSource
  /-- The port the active source stands for as last settled: the model's own field. SCREEN-SET's source ports take effect at
  the next master block boundary (R60, R53), so the port in use is kept until then (assumption log 8). -/
  activePort : Option (Fin 12)
  requested : Option SourceRole
  failoverDue : Bool
  failovers : Nat
  descTag : Option Nat
  resolved : Nat
  formatCond : Bool
  lastProgram : Option Long
  lastPosition : Option Long
  positionLost : Bool
deriving DecidableEq, Repr

/-! ### Decode unit -/

/-- One row of a format record: its role and its coefficients in matrix A and matrix B (R64). Matrix B is used only in a
steered record. -/
structure FormatRow where
  role : Role
  a : Vector Int 16
  b : Vector Int 16
deriving DecidableEq, Repr

/-- The steering fields of a steered record (R64). -/
structure Steering where
  first : Fin 16
  second : Fin 16
  shift : Nat
  slew : Nat
deriving DecidableEq, Repr

/-- A format record (R64). The steered flag is the presence of the steering fields. -/
structure FormatRecord where
  inputs : Nat
  rows : List FormatRow
  steering : Option Steering
deriving DecidableEq, Repr

/-- One row of the staging record: which coefficients have been given, and their values (section 4.2). -/
structure StagedRow where
  role : Role
  a : Option (Vector Int 16)
  b : Option (Vector Int 16)
deriving DecidableEq, Repr

/-- An open staging record (section 4.2). -/
structure Staging where
  tag : Nat
  owner : Byte
  inputs : Nat
  steering : Option Steering
  rows : List StagedRow
deriving DecidableEq, Repr

/-- The fold status of an output channel (R79). -/
inductive FoldStatus where
  | normal
  | folded (partner : Fin 16)
  | dropped
deriving DecidableEq, Repr

/-- The decode unit's state for one screen (chapter 4). -/
structure Decoder where
  tag : Nat
  format : FormatRecord
  stale : Bool
  sumEnv : Int
  diffEnv : Int
  target : Nat
  weight : Nat
  /-- The blended coefficients, row by row of the working format (R77). -/
  blended : List (Vector Int 16)
  map : Vector MapEntry 16
  foldEnable : Bool
  folds : Vector FoldStatus 16
  foldLosses : Nat
deriving DecidableEq, Repr

/-! ### Filter engine -/

/-- A biquad section with its four state values (R84, R85). -/
structure Section where
  coefs : Coefs
  x1 : Int
  x2 : Int
  y1 : Int
  y2 : Int
deriving DecidableEq, Repr

/-- A channel chain record; its section count is the length of its list (R84). -/
structure Chain where
  sections : List Section
  delay : Nat
  trim : Nat
deriving DecidableEq, Repr

/-- A running crossfade (R98). -/
structure Crossfade where
  incoming : Bank
  frame : Nat
deriving DecidableEq, Repr

/-- A running fade (R94). -/
structure Fade where
  target : Nat
  step : Nat
deriving DecidableEq, Repr

/-- The filter engine's state for one screen (chapter 5). -/
structure Engine where
  bankA : Vector Chain 16
  bankB : Vector Chain 16
  /-- The delay line of each output channel, newest entry first. An entry beyond the end of the list reads as zero (R89). -/
  lines : Vector (List Int) 16
  active : Bank
  pendingSwitch : Option Bank
  crossfade : Option Crossfade
  fader : Nat
  fade : Option Fade
  mute : Bool
  /-- The sixteen outputs of the last master frame (R88). -/
  outputs : Vector Int 16
deriving DecidableEq, Repr

/-! ### Meter and alarm unit -/

/-- One meter (R108, R109). -/
structure Meter where
  running : Int
  peak : Int
  level : Int
deriving DecidableEq, Repr

/-- A class record of the alarm table (R114). -/
structure ClassRecord where
  enable : Bool
  level : Nat
  threshold : Option Int
  count : Nat
  window : Nat
  release : Nat
  quiet : Bool
deriving DecidableEq, Repr

/-- The four states of an alarm instance (section 6.4). -/
inductive AlarmState where
  | clear | qualifying | raised | releasing
deriving DecidableEq, Repr

/-- What a timed command ended ahead of the coming boundary: a qualify window with its count, or a release with its clean
run (assumption log 2). -/
inductive EarlyEnd where
  | window (count : Nat)
  | release (clean : Nat)
deriving DecidableEq, Repr

/-- An alarm instance: its state with count, blocks left, clean run and block hit (section 6.4). -/
structure Alarm where
  state : AlarmState
  count : Nat
  left : Nat
  clean : Nat
  hit : Bool
  /-- MODEL'S OWN: what QUALIFY_WINDOW_EXPIRY or RELEASE_COMPLETE ended, kept while the block lasts (assumption log 2). -/
  early : Option EarlyEnd := none
deriving DecidableEq, Repr

/-- An entry of the mark queue (R128). -/
structure Mark where
  cue : Nat
  level : Nat
deriving DecidableEq, Repr

/-- The meter and alarm unit's state for one screen (chapter 6). -/
structure Monitor where
  meters : Vector Meter 16
  /-- The meter speed used at the last boundary (R109, R130). -/
  speed : Nat
  table : Vector ClassRecord 9
  alarms : Vector Alarm 54
  /-- The pending set: for each alarm id, absent, or present with its noticed mark (R123). -/
  pending : Vector (Option Bool) 54
  marks : List Mark
  markOverflow : Nat
  summary : Option Nat
  /-- The screen state from which the evaluated classes were last formed (R119). -/
  evaluated : ScreenState
  /-- The suppression inputs as last handed to the unit (chapter 6, R120). -/
  handedFader : Nat
  handedMute : Bool
  handedFolded : Vector Bool 16
  handedQuiet : Bool
deriving DecidableEq, Repr

/-! ### Cue engine and contact lines -/

/-- The four states of a cue (R135). -/
inductive CueState where
  | armed | fired | missed | passed
deriving DecidableEq, Repr

/-- The outcome of a firing (R142). -/
inductive CueOutcome where
  | applied | declined
deriving DecidableEq, Repr

/-- A cue record in a cue list (R135). `record` is the number of the pool record that holds it (R133), which cannot be seen
from outside. -/
structure Cue where
  record : Nat
  id : Nat
  program : Long
  trigger : Long
  action : CueAction
  catchUp : Bool
  state : CueState
  outcome : Option CueOutcome
  loadDue : Bool
deriving DecidableEq, Repr

/-- A contact line's record (R156). -/
structure Line where
  owner : Option (Fin 8)
  mode : LineMode
  threshold : Nat
  closed : Bool
  pulseEnd : Option Long
deriving DecidableEq, Repr

/-! ### Notice unit -/

/-- The source of a notice (chapter 8). -/
inductive NoticeSource where
  | alarm (id : Fin 54)
  | mark (cue : Nat)
deriving DecidableEq, Repr

/-- An entry of a notice stack (chapter 8). -/
structure StackEntry where
  saved : Nat
  source : NoticeSource
  level : Nat
  tag : Word
deriving DecidableEq, Repr

/-- An unsent notice: waiting, or being sent (R162, R172). -/
structure Unsent where
  words : List Word
  tag : Word
  sending : Bool
deriving DecidableEq, Repr

/-- The notice unit's state for one screen (chapter 8). The route stands in the screen record. The stack is held top
entry first. -/
structure NoticeUnit where
  ceiling : Nat
  stack : List StackEntry
  unsent : Option Unsent
  sequence : Word
  lost : Nat
deriving DecidableEq, Repr

/-! ### A screen, and the service unit's reset pending -/

/-- All that the part holds for one screen. -/
structure Screen where
  ctx : Context
  link : ScreenPort
  dec : Decoder
  eng : Engine
  mon : Monitor
  /-- The cue list, in list order (R134). -/
  cues : List Cue
  /-- The end of the quiet interval; none while it is closed (R147). -/
  quiet : Option Long
  notice : NoticeUnit
deriving DecidableEq, Repr

/-- A reset pending: the port of the PART-RESET (R188), and whether its response has been sent, has expired or has been
abandoned, so that the reset is due. -/
structure ResetPending where
  port : Fin 12
  due : Bool
deriving DecidableEq, Repr

/-- The share of the coming master block boundary that a timed command has already taken (assumption log 2): the model's
own record, which the boundary reads and empties. -/
inductive Share where
  | holdover (port : Fin 12)
  | window (port : Fin 12)
  | message (port : Fin 12)
  | reload (port : Fin 12)
  | exchange (screen : Fin 8)
deriving DecidableEq, Repr

end Sys2Proof.Machine
end

