-- ==== Sys2Proof/Machine/Layout.lean ====
section
/-! DEFINITION. The layouts of chapter 10: link frames, header bytes, descriptors, rack pages and service messages, and
the two check computations (R190 to R193). -/

namespace Sys2Proof.Machine

/-! ### Check computations -/

/-- The bits of a word, most significant bit first: the order in which everything is sent (chapter 10). -/
def bitsOf {n : Nat} (x : BitVec n) : List Bool := (List.range n).map x.getMsbD

/-- The register after each bit in turn: shifted left by one, then exclusive-ORed with the polynomial when the bit shifted
out differs from the incoming bit (R190). -/
def crc {n : Nat} (poly : BitVec n) : BitVec n → List Bool → BitVec n
  | reg, [] => reg
  | reg, b :: bs =>
    match reg.msb != b with
    | true => crc poly ((reg <<< 1) ^^^ poly) bs
    | false => crc poly (reg <<< 1) bs

/-- The CRC-8 of R190: polynomial x⁸+x²+x+1, register set to 0xFF. -/
def crc8 (bits : List Bool) : Byte := crc 0x07#8 0xFF#8 bits

/-- The CRC-16 of R193: polynomial x¹⁶+x¹²+x⁵+1, register set to 0xFFFF. -/
def crc16 (bits : List Bool) : Word := crc 0x1021#16 0xFFFF#16 bits

/-! ### Link frames -/

/-- The bits of a frame that its check covers, in the order they are sent (R190). -/
def frameBits {n : Nat} (f : LinkFrame n) : List Bool :=
  bitsOf f.header ++ f.slots.toList.flatMap bitsOf ++ bitsOf f.service

/-- The frame check a receiver computes (R190). -/
def frameCheck {n : Nat} (f : LinkFrame n) : Byte := crc8 (frameBits f)

/-- Whether a frame's check is good (R190). -/
def checkGood {n : Nat} (f : LinkFrame n) : Bool := frameCheck f == f.check

/-- The normal sync (R190). -/
def normalSync : Byte := 0xA7#8

/-- The stop sync (R190). -/
def stopSync : Byte := 0x58#8

/-- The service codes of a header word (R190). -/
inductive ServiceCode where
  | idle | start | data | fin
deriving DecidableEq, Repr

/-- Header bits 23–16: the sync (R190). -/
def headerSync (h : BitVec 24) : Byte := h.extractLsb' 16 8

/-- Header bits 15–10: the frame index (R190). -/
def headerIndex (h : BitVec 24) : Nat := (h.extractLsb' 10 6).toNat

/-- Header bits 9–8: the service code (R190). -/
def headerCode (h : BitVec 24) : ServiceCode :=
  match (h.extractLsb' 8 2).toNat with
  | 0 => .idle
  | 1 => .start
  | 2 => .data
  | _ => .fin

/-- Header bits 7–0: the header byte (R190). -/
def headerByte (h : BitVec 24) : Byte := h.extractLsb' 0 8

/-- The two bits of a service code (R190). -/
def codeBits : ServiceCode → BitVec 2
  | .idle => 0
  | .start => 1
  | .data => 2
  | .fin => 3

/-- A header word from its fields (R190). -/
def mkHeader (sync : Byte) (index : Nat) (code : ServiceCode) (byte : Byte) : BitVec 24 :=
  sync ++ BitVec.ofNat 6 index ++ codeBits code ++ byte

/-- A frame with the check computed over everything before it (R190). -/
def mkFrame {n : Nat} (header : BitVec 24) (slots : Vector Slot n) (service : Word) : LinkFrame n :=
  { header, slots, service, check := frameCheck { header, slots, service, check := 0 } }

/-- The port state's code in the status slot and in reply items (R190, section 1.2). -/
def portStateCode : PortState → Nat
  | .down => 0
  | .hunt => 1
  | .locked => 2
  | .holdover => 3
  | .lost => 4
  | .brk => 5

/-- The status slot of a program port's return frame (R190). -/
def statusSlot (port : Port) : Slot :=
  BitVec.ofNat 3 (portStateCode port.state) ++ BitVec.ofNat 6 port.buffer.length ++
    BitVec.ofBool port.started ++ (0#14)

/-- The screen state code (R191). -/
def screenStateCode : ScreenState → Nat
  | .dark => 0
  | .standby => 1
  | .running => 2

/-- The header byte of forward frame 0: echo toggle in bit 7, screen state code in bits 1–0 (R29, R191). -/
def forwardByte (echo : Bool) (state : ScreenState) : Byte :=
  BitVec.ofBool echo ++ (0#5) ++ BitVec.ofNat 2 (screenStateCode state)

/-! ### Descriptors -/

/-- The descriptor that twelve known bytes carry, where its check is good (R191). A format tag byte above 31 is
delivered as tag 0. -/
def parseDescriptor (bytes : List Byte) : Option Update :=
  match bytes with
  | [p3, p2, p1, p0, q3, q2, q1, q0, tag, flags, c1, c0] =>
    let covered := [p3, p2, p1, p0, q3, q2, q1, q0, tag, flags]
    if crc16 (covered.flatMap bitsOf) == c1 ++ c0 then
      some { program := p3 ++ p2 ++ p1 ++ p0, position := q3 ++ q2 ++ q1 ++ q0
             tag := if tag.toNat > 31 then 0 else tag.toNat
             play := flags.getLsbD 7, posValid := flags.getLsbD 6, inferred := false }
    else none
  | _ => none

/-! ### Rack pages -/

/-- A rack page whose check is good and whose kind is one of the two (R33, R192). -/
inductive PageContent where
  | ident (rackId : Word) (count : Nat)
  | channels (states : Vector ChannelState 16)
deriving DecidableEq, Repr

/-- A good rack page (R33). -/
structure Page where
  toggle : Bool
  last : Bool
  content : PageContent
deriving DecidableEq, Repr

/-- The channel state a two-bit code names (R192). -/
def channelStateOf (code : BitVec 2) : ChannelState :=
  match code.toNat with
  | 0 => .ok
  | 1 => .protect
  | 2 => .fault
  | _ => .absent

/-- The state of channel k stands in page bits 79 − 2k and 78 − 2k (R192). -/
def pageStates (page : BitVec 96) : Vector ChannelState 16 :=
  Vector.ofFn fun k => channelStateOf (page.extractLsb' (78 - 2 * k.val) 2)

/-- The good page that four known status slots make, if they make one (R33, R192). -/
def parsePage (slots : List Slot) : Option Page :=
  match slots with
  | [a, b, c, d] =>
    let page : BitVec 96 := a ++ b ++ c ++ d
    let covered : BitVec 80 := page.extractLsb' 16 80
    if crc16 (bitsOf covered) == page.extractLsb' 0 16 then
      let toggle := page.getLsbD 93
      let last := page.getLsbD 92
      match (page.extractLsb' 94 2).toNat with
      | 1 => some { toggle, last
                    content := .ident (page.extractLsb' 64 16) (page.extractLsb' 56 8).toNat }
      | 2 => some { toggle, last, content := .channels (pageStates page) }
      | _ => none
    else none
  | _ => none

/-! ### Service messages -/

/-- The CRC-16 over service words, each taken high byte first (R193). -/
def messageCheck (words : List Word) : Word := crc16 (words.flatMap bitsOf)

/-- The service code that word `i` of a message of `len` words carries (R193). -/
def wordCode (i len : Nat) : ServiceCode :=
  if i == 0 then .start else if i + 1 == len then .fin else .data

/-- The first DATA word: response mark, message kind and screen number (R193). -/
def kindWord (response : Bool) (kind : BitVec 11) (screen : BitVec 4) : Word :=
  BitVec.ofBool response ++ kind ++ screen

/-- A whole message from its first three words and its payload, closed by its check (R193). -/
def mkMessage (destination source : Byte) (kind tag : Word) (payload : List Word) : List Word :=
  let words := (destination ++ source) :: kind :: tag :: payload
  words ++ [messageCheck words]

end Sys2Proof.Machine
end

