-- ==== Sys2Proof/Machine/Arith.lean ====
section
/-! DEFINITION. The arithmetic terms of the spec (00_scope.md, Arithmetic Terms): asr, round-n, saturate, the
magnitude of a sample, ceil; the stop at 65,535 of the part's counters; and the one-word codings of numbers. -/

namespace Sys2Proof.Machine

/-- `x asr n`: arithmetic shift right, that is floor division by 2ⁿ. -/
def asr (x : Int) (n : Nat) : Int := x / 2 ^ n

/-- `round-n` for n of 1 or more: add 2ⁿ⁻¹, then asr n. -/
def roundBy (n : Nat) (x : Int) : Int := asr (x + 2 ^ (n - 1)) n

/-- The lower end of the sample range. -/
def sampleMin : Int := -8388608

/-- The upper end of the sample range. -/
def sampleMax : Int := 8388607

/-- `saturate`: clamp to the sample range. -/
def saturate (x : Int) : Int := max sampleMin (min sampleMax x)

/-- `|x|` of a sample: the magnitude of −8,388,608 is taken as 8,388,607. -/
def magnitude (x : Int) : Int := min sampleMax x.natAbs

/-- `ceil` of a quotient of whole numbers. -/
def ceilDiv (a b : Nat) : Nat := (a + b - 1) / b

/-- A 16-bit counter takes one more and stops at 65,535 (R20, R42, R81, R128, R168). -/
def bump (c : Nat) : Nat := min 65535 (c + 1)

/-- A blend of `old` and `new` with weight `w` of 64 for `new`: (old × (64 − w) + new × w + 32) asr 6 (R77, R98). -/
def blend (old new : Int) (w : Nat) : Int := asr (old * (64 - (w : Int)) + new * (w : Int) + 32) 6

end Sys2Proof.Machine
end

