-- ==== Sys2Proof/Machine/Formats.lean ====
section
/-! DEFINITION. The six built-in format records (R64, R65). -/

namespace Sys2Proof.Machine

/-- A row of sixteen coefficients from (column, coefficient) pairs; an unlisted coefficient is zero (R65). -/
def coefRow (cells : List (Nat × Int)) : Vector Int 16 :=
  Vector.ofFn fun j => ((cells.find? fun c => c.1 == j.val).map (·.2)).getD 0

/-- A row of an unsteered built-in record, with matrix B equal to matrix A. -/
def plainRow (role : Role) (cells : List (Nat × Int)) : FormatRow :=
  { role, a := coefRow cells, b := coefRow cells }

/-- A row of a steered built-in record. -/
def steeredRow (role : Role) (a b : List (Nat × Int)) : FormatRow :=
  { role, a := coefRow a, b := coefRow b }

/-- Tag 1, mono (R65). -/
def formatMono : FormatRecord :=
  { inputs := 1, rows := [plainRow .c [(0, 16384)]], steering := none }

/-- Tag 2, 2.0 stereo (R65). -/
def formatStereo : FormatRecord :=
  { inputs := 2, rows := [plainRow .l [(0, 16384)], plainRow .r [(1, 16384)]], steering := none }

/-- Tag 3, 5.1 (R65). -/
def formatFiveOne : FormatRecord :=
  { inputs := 6
    rows := [plainRow .l [(0, 16384)], plainRow .r [(1, 16384)], plainRow .c [(2, 16384)], plainRow .lfe [(3, 16384)],
      plainRow .ls [(4, 16384)], plainRow .rs [(5, 16384)], plainRow .lss [(4, 16384)], plainRow .lrs [(4, 16384)],
      plainRow .rss [(5, 16384)], plainRow .rrs [(5, 16384)]]
    steering := none }

/-- Tag 4, 7.1 (R65). -/
def formatSevenOne : FormatRecord :=
  { inputs := 8
    rows := [plainRow .l [(0, 16384)], plainRow .r [(1, 16384)], plainRow .c [(2, 16384)], plainRow .lfe [(3, 16384)],
      plainRow .lss [(4, 16384)], plainRow .rss [(5, 16384)], plainRow .lrs [(6, 16384)], plainRow .rrs [(7, 16384)],
      plainRow .ls [(4, 8192), (6, 8192)], plainRow .rs [(5, 8192), (7, 8192)]]
    steering := none }

/-- Tag 5, 2-channel matrix, steered on columns 0 and 1 (R65). -/
def formatMatrixTwo : FormatRecord :=
  { inputs := 2
    rows := [steeredRow .l [(0, 16384)] [(0, 8192), (1, -8192)],
      steeredRow .c [(0, 11585), (1, 11585)] [(0, 11585), (1, 11585)],
      steeredRow .r [(1, 16384)] [(0, -8192), (1, 8192)],
      steeredRow .ls [(0, 11585), (1, -11585)] [(0, 5793), (1, -5793)],
      steeredRow .rs [(0, 11585), (1, -11585)] [(0, 5793), (1, -5793)]]
    steering := some { first := 0, second := 1, shift := 9, slew := 8 } }

/-- Tag 6, 5.1 with matrix back surround, steered on columns 4 and 5 (R65). -/
def formatMatrixBack : FormatRecord :=
  { inputs := 6
    rows := [plainRow .l [(0, 16384)], plainRow .r [(1, 16384)], plainRow .c [(2, 16384)], plainRow .lfe [(3, 16384)],
      steeredRow .ls [(4, 16384)] [(4, 8192), (5, -8192)],
      steeredRow .rs [(5, 16384)] [(4, -8192), (5, 8192)],
      steeredRow .bs [(4, 11585), (5, 11585)] [(4, 11585), (5, 11585)]]
    steering := some { first := 4, second := 5, shift := 9, slew := 8 } }

/-- The built-in record under a tag of 1 to 6 (R64, R65). -/
def builtIn (tag : Nat) : Option FormatRecord :=
  match tag with
  | 1 => some formatMono
  | 2 => some formatStereo
  | 3 => some formatFiveOne
  | 4 => some formatSevenOne
  | 5 => some formatMatrixTwo
  | 6 => some formatMatrixBack
  | _ => none

end Sys2Proof.Machine
end

