-- ==== Sys2Proof/Machine/PowerOn.lean ====
section
/-! DEFINITION. The power-on values of every block (R26, R43, R63, R83, R107, R114, R132, R155, R156, R174). -/

namespace Sys2Proof.Machine

/-- Sixteen zero slots. -/
def silence : Slots := Vector.replicate 16 0

/-- All seven counters at 0 (R24, R26). -/
def zeroCounters : PortCounters :=
  { checkErrors := 0, slips := 0, recoveries := 0, fastDrops := 0, relocks := 0, stopEntries := 0, discarded := 0 }

/-- A program port at power-on (R26). -/
def portPowerOn : Port :=
  { state := .hunt
    settings := { enable := true, holdover := 50, dropCount := 32, dropWindow := 10, dropEnable := true }
    goodRun := 0, missRun := 0, stopRun := 0, expected := none, window := none, holdoverLeft := 0
    buffer := [], started := false, lastFrame := none, conceal := silence
    attempt := none, base := none, badRun := 0, lostRaised := false, assembly := none
    counters := zeroCounters, capture := none, lastGood := none, lastTimedOut := none, sent := none }

/-- An arbiter at power-on (R174). -/
def arbiterPowerOn : Arbiter :=
  { interval := 16, nextInterval := 16, remainder := 16, respCount := 4, respWeight := 2, respLeft := 4
    screenLeft := Vector.replicate 8 0, lastGranted := none, holder := none, burst := 0, channel := none
    queue := [], requestsDiscarded := 0, responsesExpired := 0, messagesAbandoned := 0 }

/-- Sixteen channel states, all ABSENT (R38). -/
def allAbsent : Vector ChannelState 16 := Vector.replicate 16 .absent

/-- A screen port at power-on (R43). -/
def screenPortPowerOn : ScreenPort :=
  { link := .hunt, goodRun := 0, missRun := 0, expected := none, attempt := none, echo := false, lastToggle := false
    identSeen := false, timer := 0, rackId := none, channelCount := none, stored := allAbsent, presented := allAbsent
    linkDrops := 0, timeouts := 0, sent := none }

/-- A speaker map entry at power-on (R63). -/
def entryPowerOn : MapEntry := { role := none, expected := false, partner := none, gain := 16384 }

/-- A screen context at power-on (R63). -/
def contextPowerOn : Context :=
  { state := .dark, primary := none, alternate := none, follow := false, fallback := 3, override := none
    map := Vector.replicate 16 entryPowerOn, foldEnable := false, meterSpeed := 4, window := 2000, route := none
    active := .none, activePort := none, requested := none, failoverDue := false, failovers := 0, descTag := none
    resolved := 3, formatCond := true, lastProgram := none, lastPosition := none, positionLost := false }

/-- The decode unit's state for a screen at power-on (R83): working format tag 3 with reset steering. -/
def decoderPowerOn : Decoder :=
  { tag := 3, format := formatFiveOne, stale := false, sumEnv := 0, diffEnv := 0, target := 0, weight := 0
    blended := formatFiveOne.rows.map (·.a), map := Vector.replicate 16 entryPowerOn, foldEnable := false
    folds := Vector.replicate 16 .normal, foldLosses := 0 }

/-- A channel chain record at power-on (R107). -/
def chainPowerOn : Chain := { sections := [], delay := 0, trim := 16384 }

/-- The filter engine's state for a screen at power-on (R107). -/
def enginePowerOn : Engine :=
  { bankA := Vector.replicate 16 chainPowerOn, bankB := Vector.replicate 16 chainPowerOn
    lines := Vector.replicate 16 [], active := .a, pendingSwitch := none, crossfade := none, fader := 0, fade := none
    mute := false, outputs := Vector.replicate 16 0 }

/-- A meter at rest (R132). -/
def meterZero : Meter := { running := 0, peak := 0, level := 0 }

/-- An alarm instance in CLEAR with count, blocks left, clean run and block hit 0 (R115, R119, R132). -/
def alarmClear : Alarm := { state := .clear, count := 0, left := 0, clean := 0, hit := false }

/-- The alarm table at power-on (R114). -/
def tablePowerOn : Vector ClassRecord 9 :=
  #v[{ enable := false, level := 2, threshold := none, count := 8, window := 1000, release := 2000, quiet := false },
     { enable := false, level := 2, threshold := some 7500000, count := 3, window := 10, release := 1000, quiet := false },
     { enable := false, level := 1, threshold := some 2000, count := 3000, window := 3000, release := 0, quiet := true },
     { enable := false, level := 0, threshold := none, count := 1, window := 1, release := 0, quiet := false },
     { enable := false, level := 2, threshold := none, count := 4, window := 1000, release := 5000, quiet := false },
     { enable := false, level := 1, threshold := none, count := 1, window := 1, release := 0, quiet := false },
     { enable := false, level := 0, threshold := none, count := 500, window := 500, release := 0, quiet := false },
     { enable := false, level := 2, threshold := none, count := 1, window := 1, release := 0, quiet := false },
     { enable := false, level := 3, threshold := none, count := 1, window := 1, release := 0, quiet := false }]

/-- The meter and alarm unit's state for a screen at power-on (R132). -/
def monitorPowerOn : Monitor :=
  { meters := Vector.replicate 16 meterZero, speed := 4, table := tablePowerOn, alarms := Vector.replicate 54 alarmClear
    pending := Vector.replicate 54 none, marks := [], markOverflow := 0, summary := none, evaluated := .dark
    handedFader := 0, handedMute := false, handedFolded := Vector.replicate 16 false, handedQuiet := false }

/-- The notice unit's state for a screen at power-on (R174). -/
def noticePowerOn : NoticeUnit := { ceiling := 4, stack := [], unsent := none, sequence := 0, lost := 0 }

/-- A screen at power-on. -/
def screenPowerOn : Screen :=
  { ctx := contextPowerOn, link := screenPortPowerOn, dec := decoderPowerOn, eng := enginePowerOn, mon := monitorPowerOn
    cues := [], quiet := none, notice := noticePowerOn }

/-- A contact line at power-on (R156). -/
def linePowerOn : Line := { owner := none, mode := .cue, threshold := 0, closed := false, pulseEnd := none }

/-- The number of cue records in the pool (R133). -/
def poolSize : Nat := 512

/-- The strap inputs that `State.reset` latches: the spec gives no value (assumption log 1, DESIGN CHOICE). -/
def strapsAtReset : BitVec 4 := 0

end Sys2Proof.Machine
end

