-- ==== Sys2Proof/Machine/State.lean ====
section
/-! DEFINITION. The state of the part, the reasons a step can stop, and the state right after power-on. -/

namespace Sys2Proof.Machine

/-- The faults of the part. None: the spec names no condition under which the part stops, so no meaning raises a fault. -/
inductive Fault
deriving DecidableEq, Repr

/-- The refusals of the model. -/
inductive Refusal where
  /-- Raised only by an arm of `exec` whose command has no meaning yet; safe, since no next state is claimed. No arm raises
  it in this model. -/
  | notModelled (mnemonic : String)
deriving DecidableEq, Repr

/-- The whole state of the part, plain data. `pending` is the queue of waiting commands, first in, first out. -/
structure State where
  /-- Whether the part has power (R156, R175). -/
  powered : Bool
  /-- The latched strap value (R175). -/
  straps : BitVec 4
  /-- The block counter (00_scope.md, Rates and Units of Time). -/
  blockCounter : Long
  /-- The index of the next master frame within its master block (R27). -/
  frameIndex : Nat
  ports : Vector Port 12
  arbiters : Vector Arbiter 12
  screens : Vector Screen 8
  /-- The loadable entries of the format table, tags 16 to 31 (R64). -/
  loaded : Vector (Option FormatRecord) 16
  staging : Option Staging
  /-- The free stack of the cue pool, top first (R133). -/
  freeStack : List Nat
  lines : Vector Line 16
  /-- The holder of each screen lock; 0 means free (section 9.4). -/
  screenLocks : Vector Byte 8
  /-- The holder of the part lock; 0 means free. -/
  partLock : Byte
  resetPending : Option ResetPending
  /-- MODEL'S OWN: the shares of the coming boundary already taken by timed commands (assumption log 2). -/
  taken : List Share
  /-- MODEL'S OWN: how many free values have been drawn (assumption logs 6 and 7). -/
  freeCount : Nat
  /-- The commands that wait, first in, first out. -/
  pending : List Instr
deriving DecidableEq, Repr

/-- The part at power-on, with the strap inputs at `straps` and the given queue of waiting commands (R175, R189). -/
def State.powerOn (straps : BitVec 4) (queue : List Instr) : State :=
  { powered := true, straps := straps, blockCounter := 0, frameIndex := 0
    ports := Vector.replicate 12 portPowerOn, arbiters := Vector.replicate 12 arbiterPowerOn
    screens := Vector.replicate 8 screenPowerOn, loaded := Vector.replicate 16 none, staging := none
    freeStack := List.range poolSize, lines := Vector.replicate 16 linePowerOn
    screenLocks := Vector.replicate 8 0, partLock := 0, resetPending := none, taken := [], freeCount := 0
    pending := queue }

/-- The part right after reset: power-on, with no command waiting. -/
def State.reset : State := State.powerOn strapsAtReset []

end Sys2Proof.Machine
end

