-- ==== Sys2Proof/Machine/Ops.lean ====
section
/-! DEFINITION. The shared operations over State: who answers while the part has power, the update of one port, arbiter,
screen or line, and the repetition of an operation over all of them in number order. -/

namespace Sys2Proof.Machine

/-- A command acts on a part that has power. Without power nothing in the part reacts, and the command leaves the state
as it is (assumption log 3). -/
def live (s : State) (f : State → State) : Host.Outcome State Fault Refusal :=
  .next (if s.powered then f s else s)

/-- Change one program port. -/
def State.modPort (s : State) (p : Fin 12) (f : Port → Port) : State :=
  { s with ports := s.ports.set p.val (f s.ports[p]) }

/-- Change one return channel arbiter. -/
def State.modArb (s : State) (p : Fin 12) (f : Arbiter → Arbiter) : State :=
  { s with arbiters := s.arbiters.set p.val (f s.arbiters[p]) }

/-- Change one screen. -/
def State.modScreen (s : State) (n : Fin 8) (f : Screen → Screen) : State :=
  { s with screens := s.screens.set n.val (f s.screens[n]) }

/-- Change one contact line. -/
def State.modLine (s : State) (l : Fin 16) (f : Line → Line) : State :=
  { s with lines := s.lines.set l.val (f s.lines[l]) }

/-- Change one screen's context. -/
def State.modCtx (s : State) (n : Fin 8) (f : Context → Context) : State :=
  s.modScreen n fun x => { x with ctx := f x.ctx }

/-- Change one screen's port. -/
def State.modLink (s : State) (n : Fin 8) (f : ScreenPort → ScreenPort) : State :=
  s.modScreen n fun x => { x with link := f x.link }

/-- Change the decode unit's state for one screen. -/
def State.modDec (s : State) (n : Fin 8) (f : Decoder → Decoder) : State :=
  s.modScreen n fun x => { x with dec := f x.dec }

/-- Change the filter engine's state for one screen. -/
def State.modEng (s : State) (n : Fin 8) (f : Engine → Engine) : State :=
  s.modScreen n fun x => { x with eng := f x.eng }

/-- Change the meter and alarm unit's state for one screen. -/
def State.modMon (s : State) (n : Fin 8) (f : Monitor → Monitor) : State :=
  s.modScreen n fun x => { x with mon := f x.mon }

/-- Change one screen's cue list. -/
def State.modCues (s : State) (n : Fin 8) (f : List Cue → List Cue) : State :=
  s.modScreen n fun x => { x with cues := f x.cues }

/-- Change the notice unit's state for one screen. -/
def State.modNotice (s : State) (n : Fin 8) (f : NoticeUnit → NoticeUnit) : State :=
  s.modScreen n fun x => { x with notice := f x.notice }

/-- Set the end of one screen's quiet interval, or close it. -/
def State.setQuiet (s : State) (n : Fin 8) (q : Option Long) : State :=
  s.modScreen n fun x => { x with quiet := q }

/-- Do an operation for each item of a list, in order. -/
def forEach {α : Type} (items : List α) (f : α → State → State) (s : State) : State :=
  items.foldl (fun t a => f a t) s

/-- Do an operation for each screen, 0 to 7. -/
def forScreens (f : Fin 8 → State → State) (s : State) : State := forEach (List.finRange 8) f s

/-- Do an operation for each program port, P0 to P11. -/
def forPorts (f : Fin 12 → State → State) (s : State) : State := forEach (List.finRange 12) f s

/-- Do an operation for each contact line, 0 to 15. -/
def forLines (f : Fin 16 → State → State) (s : State) : State := forEach (List.finRange 16) f s

/-- A number as an index below `n`, where it is one. -/
def index? (n k : Nat) : Option (Fin n) := if h : k < n then some ⟨k, h⟩ else none

/-- The part's node number: 0xC0 plus the strap value (R175). -/
def State.node (s : State) : Byte := BitVec.ofNat 8 (0xC0 + s.straps.toNat)

/-- The block counter as the coming master block boundary advances it; it wraps at 2³². -/
def State.nextCounter (s : State) : Long := s.blockCounter + 1

/-- Whether a boundary with this advanced block counter is a service tick (R18). -/
def serviceTick (counter : Long) : Bool := counter.toNat % 16 == 0

/-- How many service ticks have fallen after block counter value `start`, up to and with `now` (R18, R168). -/
def ticksSince (start now : Long) : Nat := (BitVec.extractLsb' 4 28 now - BitVec.extractLsb' 4 28 start).toNat

/-- A share of the coming boundary is recorded as taken by a timed command (assumption log 2). -/
def State.takeShare (s : State) (x : Share) : State := { s with taken := x :: s.taken }

/-- An item's share of a boundary, left out where a timed command has taken it already (assumption log 2). -/
def State.unlessTaken (s : State) (x : Share) (f : State → State) : State := if s.taken.contains x then s else f s

/-- Whether a screen's relay contact of line `l` is closed: it is open without power (R156). -/
def State.relayClosed (s : State) (l : Fin 16) : Bool := s.powered && s.lines[l].closed

end Sys2Proof.Machine
end

