-- ==== Sys2Proof/Machine/Flags.lean ====
section
/-! DEFINITION. The classes and conditions the part forms: the class of an arriving frame and its expected index
(R1, R30), the frame index of an error (R21), the class and level of an alarm id, evaluation and suppression (R119 to R121),
valid format tags (R64), and the totals of the shared budgets (R86, R87). -/

namespace Sys2Proof.Machine

/-! ### Frame classes -/

/-- The classes of an arriving frame (R1). A return frame has no STOP class (R30). -/
inductive FrameClass where
  | good | misplaced | checkError | stop | miss
deriving DecidableEq, Repr

/-- The class of a frame with normal sync (R1, R30). -/
def classOfNormal (expected : Option Nat) (index : Nat) (checkOk : Bool) : FrameClass :=
  if checkOk then
    match expected with
    | some e => if index = e then .good else .misplaced
    | none => if index ≤ 47 then .good else .miss
  else .checkError

/-- The class of a forward frame at a program port (R1). -/
def classify (expected : Option Nat) (f : LinkFrame 16) : FrameClass :=
  if headerSync f.header = normalSync then classOfNormal expected (headerIndex f.header) (checkGood f)
  else if headerSync f.header = stopSync ∧ checkGood f = true then .stop
  else .miss

/-- The class of a return frame at a screen port: a stop sync is a MISS (R30). -/
def classifyReturn (expected : Option Nat) (f : LinkFrame 1) : FrameClass :=
  if headerSync f.header = normalSync then classOfNormal expected (headerIndex f.header) (checkGood f)
  else .miss

/-- The expected index after a frame, while one is kept (R1, R30). -/
def nextExpected (expected : Option Nat) (cls : FrameClass) (index : Nat) : Option Nat :=
  match cls with
  | .good | .misplaced => some ((index + 1) % 48)
  | .checkError | .stop | .miss => expected.map fun e => (e + 1) % 48

/-- The good-frame run after a frame, in a state that counts one (R2, R5, R6, R31). -/
def nextGoodRun (run : Nat) (cls : FrameClass) : Nat :=
  match cls with
  | .good => run + 1
  | .misplaced => 1
  | .checkError | .stop | .miss => 0

/-- The frame index that an error is captured with (R21): the frame's own index where its check is good, otherwise the
expected index. `free` stands for the unstated index of a CHECK ERROR where none is expected (assumption log 6). -/
def errorIndex (cls : FrameClass) (expected : Option Nat) (index : Nat) (free : Option Nat) : Option Nat :=
  match cls with
  | .good | .misplaced | .stop => some index
  | .checkError => match expected with
    | some e => some e
    | none => free
  | .miss => expected

/-! ### Format tags -/

/-- The format record under a tag, where the tag names a valid entry (R64). -/
def State.format? (s : State) (tag : Nat) : Option FormatRecord :=
  if tag < 16 then builtIn tag
  else match index? 16 (tag - 16) with
    | some i => s.loaded[i]
    | none => none

/-- Whether a tag names a valid entry of the format table (R64, R55). -/
def State.validTag (s : State) (tag : Nat) : Bool := (s.format? tag).isSome

/-! ### Alarm ids -/

/-- The class of an alarm id (section 6.2). -/
def classOf (id : Fin 54) : AlarmClass :=
  if id.val < 16 then .clip else if id.val < 32 then .over else if id.val < 48 then .silent
  else if id.val = 48 then .source else if id.val = 49 then .slip else if id.val = 50 then .amp
  else if id.val = 51 then .link else if id.val = 52 then .cue else .format

/-- The place of a class in the alarm table (section 6.2). -/
def classIndex : AlarmClass → Fin 9
  | .clip => 0
  | .over => 1
  | .silent => 2
  | .source => 3
  | .slip => 4
  | .amp => 5
  | .link => 6
  | .cue => 7
  | .format => 8

/-- The output channel of a per-channel alarm id (section 6.2). -/
def channelOf (id : Fin 54) : Fin 16 := ⟨id.val % 16, Nat.mod_lt _ (by decide)⟩

/-- The class record of an alarm id (R114). -/
def Monitor.record (m : Monitor) (id : Fin 54) : ClassRecord := m.table[classIndex (classOf id)]

/-- The level of an alarm id, read from the table where it is needed (R114). -/
def Monitor.levelOf (m : Monitor) (id : Fin 54) : Nat := (m.record id).level

/-- The classes that a screen state evaluates (R119). -/
def evaluates (state : ScreenState) (cls : AlarmClass) : Bool :=
  match state with
  | .dark => cls == .amp || cls == .link
  | .standby => cls != .silent
  | .running => true

/-- Whether an instance is held clear by suppression, from the suppression inputs as last handed to the unit (R120,
R121). R120's first condition, the screen not RUNNING, is the evaluated set's: SILENT is evaluated in RUNNING alone. -/
def Monitor.suppressed (m : Monitor) (id : Fin 54) : Bool :=
  (m.handedQuiet && (m.record id).quiet) ||
    (classOf id == .silent && (m.handedMute || m.handedFader == 0 || m.handedFolded[channelOf id]))

/-- Whether an instance takes occurrences: enabled, evaluated and not suppressed (R110). -/
def Monitor.watches (m : Monitor) (id : Fin 54) : Bool :=
  (m.record id).enable && evaluates m.evaluated (classOf id) && !m.suppressed id

/-- Whether an instance stands: RAISED or RELEASING (section 6.4). -/
def Alarm.stands (a : Alarm) : Bool := a.state == .raised || a.state == .releasing

/-- The lesser of two optional levels. -/
def lesser (a b : Option Nat) : Option Nat :=
  match a, b with
  | some x, some y => some (min x y)
  | some x, none => some x
  | none, b => b

/-- The alarm summary: the lowest level among the standing instances (R129). -/
def Monitor.formSummary (m : Monitor) : Option Nat :=
  (List.finRange 54).foldl (fun acc id => if m.alarms[id].stands then lesser acc (some (m.levelOf id)) else acc) none

/-! ### Budgets of the filter engine -/

/-- The section allocation of a screen: the section counts of all 32 records (R86). -/
def Engine.sectionAllocation (e : Engine) : Nat :=
  ((List.finRange 16).map fun c => e.bankA[c].sections.length + e.bankB[c].sections.length).sum

/-- The delay allocation of an output channel: the larger of its two delays (R87). -/
def Engine.delayAllocation (e : Engine) (c : Fin 16) : Nat := max e.bankA[c].delay e.bankB[c].delay

/-- The section total of the part (R86). -/
def State.sectionTotal (s : State) : Nat :=
  ((List.finRange 8).map fun n => s.screens[n].eng.sectionAllocation).sum

/-- The pool total of the part (R87). -/
def State.poolTotal (s : State) : Nat :=
  ((List.finRange 8).map fun n => ((List.finRange 16).map s.screens[n].eng.delayAllocation).sum).sum

/-! ### Sources -/

/-- The port configured in a role (section 3.1). -/
def Context.portOf (c : Context) : SourceRole → Option (Fin 12)
  | .primary => c.primary
  | .alternate => c.alternate

/-- A source role as an active source. -/
def activeOf : SourceRole → ActiveSource
  | .primary => .primary
  | .alternate => .alternate

/-- Whether a configured port is in a state (R50, R52, R53). -/
def State.portIs (s : State) (p : Option (Fin 12)) (st : PortState) : Bool :=
  match p with
  | some q => s.ports[q].state == st
  | none => false

end Sys2Proof.Machine
end

