-- ==== Sys2Proof/Machine/Contacts.lean ====
section
/-! DEFINITION. The contact lines (section 7.6): the drives of R157 and the following of the alarm summary (R158). -/

namespace Sys2Proof.Machine

/-- A drive of a CUE-mode line at block counter `counter` (R157). -/
def Line.drive (counter : Long) (d : Drive) (l : Line) : Line :=
  match d with
  | .closeLine => { l with closed := true, pulseEnd := none }
  | .openLine => { l with closed := false, pulseEnd := none }
  | .pulse ms => { l with closed := true, pulseEnd := some (counter + BitVec.ofNat 32 ms) }

/-- Whether a summary closes an ALARM-mode line with a threshold level (R158). -/
def summaryCloses (summary : Option Nat) (threshold : Nat) : Bool :=
  match summary with
  | some lv => decide (lv ≤ threshold)
  | none => false

/-- An ALARM-mode line owned by screen `n` is set from the summary; any other line stays (R158). -/
def Line.followSummary (n : Fin 8) (summary : Option Nat) (l : Line) : Line :=
  if l.mode = .alarm ∧ l.owner = some n then { l with closed := summaryCloses summary l.threshold } else l

/-- The handing of a screen's summary to the contact line unit (R129, R158). -/
def State.handSummary (s : State) (n : Fin 8) (summary : Option Nat) : State :=
  { s with lines := Vector.ofFn fun l => s.lines[l].followSummary n summary }

/-- A line whose pulse end is `counter` opens (R157). -/
def Line.endPulse (counter : Long) (l : Line) : Line :=
  if l.pulseEnd = some counter then { l with closed := false, pulseEnd := none } else l

/-- Whether a line takes drives of a screen: owned by it, in CUE mode (R142, R160). -/
def Line.drivenBy (n : Fin 8) (l : Line) : Bool := l.owner == some n && l.mode == .cue

end Sys2Proof.Machine
end

