-- ==== Sys2Proof/Machine/Alarms.lean ====
section
/-! DEFINITION. The alarm instances (sections 6.4 to 6.8): occurrences, boundary steps, suppression, the pending set, the
mark queue and the alarm summary. -/

namespace Sys2Proof.Machine

/-! ### One instance -/

/-- The instance that the ending block's occurrence and boundary step still find: one that a timed command has ended ahead of
the boundary stands again with its last block, since R117 puts the step after the block's occurrences (assumption log 2). -/
def Alarm.resumed (a : Alarm) : Alarm :=
  match a.early with
  | none => a
  | some (.window count) => { state := .qualifying, count, left := 1, clean := 0, hit := false }
  | some (.release clean) => { state := .releasing, count := 0, left := 0, clean, hit := false }

/-- What an instance does when it takes an occurrence (R116). The Bool tells an entry into RAISED from QUALIFYING (R118). -/
def Alarm.occurrence (r : ClassRecord) (a : Alarm) : Alarm × Bool :=
  match a.state with
  | .clear =>
    if r.count ≤ 1 then ({ state := .raised, count := 0, left := 0, clean := 0, hit := true }, true)
    else ({ state := .qualifying, count := 1, left := r.window, clean := 0, hit := true }, false)
  | .qualifying =>
    if r.count ≤ a.count + 1 then ({ state := .raised, count := 0, left := 0, clean := 0, hit := true }, true)
    else ({ a with count := a.count + 1, hit := true }, false)
  | .raised => ({ a with hit := true }, false)
  | .releasing => ({ state := .raised, count := 0, left := 0, clean := 0, hit := true }, false)

/-- An instance's boundary step (R117), which ends by clearing the block hit. -/
def Alarm.boundaryStep (r : ClassRecord) (a : Alarm) : Alarm :=
  match a.state with
  | .clear => { a with hit := false }
  | .qualifying => if a.left ≤ 1 then alarmClear else { a with left := a.left - 1, hit := false }
  | .raised =>
    if a.hit then { a with hit := false }
    else if r.release = 0 then alarmClear
    else { state := .releasing, count := 0, left := 0, clean := 0, hit := false }
  | .releasing =>
    if a.hit then { a with hit := false }
    else if r.release ≤ a.clean + 1 then alarmClear
    else { a with clean := a.clean + 1 }

/-! ### One screen's unit -/

/-- Setting the pending flag of an id: added unnoticed where absent, unchanged where present (R123). -/
def Monitor.setPending (id : Fin 54) (m : Monitor) : Monitor :=
  match m.pending[id] with
  | none => { m with pending := m.pending.set id.val (some false) }
  | some _ => m

/-- Return to CLEAR every instance that satisfies a condition, leaving the pending set as it stands (R122). -/
def Monitor.clearWhere (cond : Fin 54 → Bool) (m : Monitor) : Monitor :=
  { m with alarms := Vector.ofFn fun id => if cond id then alarmClear else m.alarms[id] }

/-- Form the summary again (R129). -/
def Monitor.summarise (m : Monitor) : Monitor := { m with summary := m.formSummary }

/-- An occurrence offered to an instance: ignored unless the instance takes it (R110, R116, R118). -/
def Monitor.offer (id : Fin 54) (m : Monitor) : Monitor :=
  if m.watches id then
    let r := m.alarms[id].resumed.occurrence (m.record id)
    let m' := { m with alarms := m.alarms.set id.val r.1 }
    if r.2 then m'.setPending id else m'
  else m

/-- Suppression of every suppressed instance: it is returned to CLEAR (R120, R121). -/
def Monitor.clearSuppressed (m : Monitor) : Monitor := m.clearWhere m.suppressed

/-! ### Over the state -/

/-- Change a screen's meter and alarm unit, form its summary again and hand it to the contact lines (R129, R158). -/
def State.alarmEvent (s : State) (n : Fin 8) (f : Monitor → Monitor) : State :=
  let t := s.modMon n fun m => (f m).summarise
  t.handSummary n t.screens[n].mon.summary

/-- One occurrence of an alarm of a screen (R113, R116). -/
def State.occur (s : State) (n : Fin 8) (id : Fin 54) : State := s.alarmEvent n (Monitor.offer id)

/-- The alarm id of a channel's CLIP instance (section 6.2). -/
def clipId (c : Fin 16) : Fin 54 := ⟨c.val, by omega⟩

/-- The alarm id of SLIP (section 6.2). -/
def slipId : Fin 54 := 49

/-- The alarm id of CUE (section 6.2). -/
def cueId : Fin 54 := 52

/-- A quiet interval opens: the instances of every quiet-suppressible class are returned to CLEAR (R121, R147). -/
def State.quietOpens (s : State) (n : Fin 8) : State :=
  s.alarmEvent n fun m => { m with handedQuiet := true }.clearSuppressed

/-- A mute is set: every SILENT instance is suppressed from that event (R120). -/
def State.muteHanded (s : State) (n : Fin 8) : State :=
  s.alarmEvent n fun m => { m with handedMute := true }.clearSuppressed

/-- The fader level becomes 0: every SILENT instance is suppressed from that event (R120). -/
def State.faderZeroHanded (s : State) (n : Fin 8) : State :=
  s.alarmEvent n fun m => { m with handedFader := 0 }.clearSuppressed

/-- The screen leaves RUNNING: every SILENT instance is returned to CLEAR (R120). -/
def State.silentStops (s : State) (n : Fin 8) : State :=
  s.alarmEvent n fun m => m.clearWhere fun id => classOf id == .silent

/-! ### The mark queue -/

/-- A level-3 mark at the head of the queue is removed, with no notice (R161). -/
def dropLevelThree (marks : List Mark) : List Mark := marks.dropWhile fun m => m.level == 3

/-- The push of a MARK cue, with the loss of the oldest entry at a full queue (R128), and the removal of level-3
marks that reach the head (R161). -/
def Monitor.pushMark (mark : Mark) (m : Monitor) : Monitor :=
  if m.marks.length ≥ 8 then
    { m with marks := dropLevelThree (m.marks.tail ++ [mark]), markOverflow := bump m.markOverflow }
  else { m with marks := dropLevelThree (m.marks ++ [mark]) }

end Sys2Proof.Machine
end

