-- ==== Sys2Proof/Machine/Engine.lean ====
section
/-! DEFINITION. The filter engine's control (sections 5.1 to 5.5): banks and their section states, the fader, mute, bank
switches and crossfades, and the entry to DARK. -/

namespace Sys2Proof.Machine

/-! ### Banks -/

/-- The other bank of a screen (R84). -/
def otherBank : Bank → Bank
  | .a => .b
  | .b => .a

/-- The sixteen records of a bank (R84). -/
def Engine.bank (e : Engine) : Bank → Vector Chain 16
  | .a => e.bankA
  | .b => e.bankB

/-- Replace the sixteen records of a bank. -/
def Engine.setBank (e : Engine) (k : Bank) (v : Vector Chain 16) : Engine :=
  match k with
  | .a => { e with bankA := v }
  | .b => { e with bankB := v }

/-- A section at rest (R85). -/
def Section.rest (x : Section) : Section := { x with x1 := 0, x2 := 0, y1 := 0, y2 := 0 }

/-- A record with every section at rest (R85). -/
def Chain.rest (c : Chain) : Chain := { c with sections := c.sections.map Section.rest }

/-- Every section state of a bank set to zero (R85). -/
def Engine.restBank (k : Bank) (e : Engine) : Engine :=
  e.setBank k (Vector.ofFn fun c => (e.bank k)[c].rest)

/-- The selected bank: the incoming bank while a crossfade runs, and the active bank otherwise (R97). -/
def Engine.selected (e : Engine) : Bank :=
  match e.crossfade with
  | some x => x.incoming
  | none => e.active

/-- The end of a crossfade: the incoming bank becomes active, and the outgoing bank's states are zeroed (R99). -/
def Engine.endCrossfade (e : Engine) : Engine :=
  match e.crossfade with
  | some x => { e with active := x.incoming, crossfade := none }.restBank (otherBank x.incoming)
  | none => e

/-- Whether a crossfade has run its frame with j = 64 (R99). -/
def Engine.crossfadeOver (e : Engine) : Bool :=
  match e.crossfade with
  | some x => decide (64 ≤ x.frame)
  | none => false

/-- A switch request naming bank `x` (R97). -/
def Engine.select (x : Bank) (e : Engine) : Engine :=
  if x = e.selected then { e with pendingSwitch := none } else { e with pendingSwitch := some x }

/-- The start of a pending switch at a master block boundary (R97). -/
def Engine.startSwitch (state : ScreenState) (e : Engine) : Engine :=
  match e.pendingSwitch, e.crossfade with
  | some x, none =>
    match state with
    | .dark => { e with active := x, pendingSwitch := none }
    | .standby | .running =>
      { e with pendingSwitch := none, crossfade := some { incoming := x, frame := 0 } }.restBank x
  | _, _ => e

/-! ### Fader and mute -/

/-- A FADE with target `t` and duration `d`, each clamped (R94). -/
def Engine.takeFade (t d : Nat) (e : Engine) : Engine :=
  let target := min t 16384
  let duration := min d 60000
  if duration = 0 then { e with fader := target, fade := none }
  else if target = e.fader then { e with fade := none }
  else
    let distance := (target - e.fader) + (e.fader - target)
    { e with fade := some { target, step := ceilDiv distance duration } }

/-- The fade step of a master block boundary (R95). -/
def Engine.fadeStep (e : Engine) : Engine :=
  match e.fade with
  | none => e
  | some f =>
    if e.fader < f.target then
      if f.target ≤ e.fader + f.step then { e with fader := f.target, fade := none }
      else { e with fader := e.fader + f.step }
    else
      if e.fader ≤ f.target + f.step then { e with fader := f.target, fade := none }
      else { e with fader := e.fader - f.step }

/-- The entry to DARK: the fader at 0 with no fade, mute clear, any crossfade completed, both banks at rest and the lines
zero (R96, R100). A pending switch is kept. -/
def Engine.enterDark (e : Engine) : Engine :=
  let e := { e.endCrossfade with fader := 0, fade := none, mute := false, lines := Vector.replicate 16 [] }
  (e.restBank .a).restBank .b

/-- A FADE taken for a screen; a level that becomes 0 is told to the meter and alarm unit (R94, R120). -/
def State.takeFade (s : State) (n : Fin 8) (t d : Nat) : State :=
  let u := s.modEng n (Engine.takeFade t d)
  if min d 60000 = 0 ∧ min t 16384 = 0 then u.faderZeroHanded n else u

/-- A MUTE taken for a screen (R92, R105); a mute set is told to the meter and alarm unit (R120). -/
def State.takeMute (s : State) (n : Fin 8) (on : Bool) : State :=
  let u := s.modEng n fun e => { e with mute := on }
  if on then u.muteHanded n else u

end Sys2Proof.Machine
end

