-- ==== Sys2Proof/Machine/Screens.lean ====
section
/-! DEFINITION. The screen contexts' shared operations (sections 3.2 to 3.5): entries to and exits from the screen states,
source requests, failover, the boundary's settling of the source and of the format tag. -/

namespace Sys2Proof.Machine

/-! ### Decode steering, which several of these events reset -/

/-- A steering reset (R73). -/
def Decoder.resetSteering (d : Decoder) : Decoder :=
  { d with sumEnv := 0, diffEnv := 0, target := 0, weight := 0, blended := d.format.rows.map (·.a) }

/-! ### Screen states -/

/-- The active source selected on entry from DARK (R46). -/
def Context.selectSource (c : Context) : Context :=
  match c.primary with
  | some p => { c with active := .primary, activePort := some p }
  | none => match c.alternate with
    | some p => { c with active := .alternate, activePort := some p }
    | none => { c with active := .none, activePort := none }

/-- Set failover due, where the screen is RUNNING on its primary with an alternate configured (R50). -/
def Context.armFailover (c : Context) : Context :=
  if c.state = .running ∧ c.active = .primary ∧ c.alternate.isSome then { c with failoverDue := true } else c

/-- The effects of leaving RUNNING: the quiet interval ends, failover due is cleared and SILENT is suppressed (R47, R148,
R120). The screen's new state is the caller's. -/
def State.leaveRunning (s : State) (n : Fin 8) : State :=
  if s.screens[n].ctx.state = .running then
    ((s.setQuiet n none).modCtx n fun c => { c with failoverDue := false }).silentStops n
  else s

/-- The entry to DARK (R45, R96, R100, R73), with the effects of leaving RUNNING where the screen was RUNNING. -/
def State.enterDark (s : State) (n : Fin 8) : State :=
  let s := s.leaveRunning n
  let s := s.modCtx n fun c =>
    { c with state := .dark, active := .none, activePort := none, requested := none, failoverDue := false
             descTag := none, positionLost := false }
  let s := s.modEng n Engine.enterDark
  let s := s.modDec n Decoder.resetSteering
  s.faderZeroHanded n

/-- The entry to STANDBY from DARK or RUNNING (R46, R47). -/
def State.enterStandby (s : State) (n : Fin 8) : State :=
  let s := s.leaveRunning n
  s.modCtx n fun c =>
    let c := if c.state = .dark then c.selectSource else c
    { c with state := .standby }

/-- The entry to RUNNING from DARK or STANDBY (R46, R50). -/
def State.enterRunning (s : State) (n : Fin 8) : State :=
  s.modCtx n fun c =>
    let c := if c.state = .dark then c.selectSource else c
    let c := { c with state := .running, lastPosition := none, positionLost := false }
    if s.portIs c.primary .lost then c.armFailover else c

/-- SCREEN-STATE's change of state: nothing where the screen is already in the named state (R44). -/
def State.changeState (s : State) (n : Fin 8) (target : ScreenState) : State :=
  if s.screens[n].ctx.state = target then s
  else match target with
    | .dark => s.enterDark n
    | .standby => s.enterStandby n
    | .running => s.enterRunning n

/-! ### Announcements of the program ports -/

/-- One screen's reaction to a port's announcement of its state (R48, R49, R50). LOST and LOCKED are matched with the configured
primary and alternate ports, as R49 and R50 name them. BREAK is matched with the port in use. Between a SCREEN-SET of the source
ports and the boundary R49 does not say which port `the active source port` is, and this is the model's choice (DEDUCED,
assumption log 8). -/
def State.hearAnnouncement (p : Fin 12) (st : PortState) (n : Fin 8) (s : State) : State :=
  let c := s.screens[n].ctx
  match st with
  | .lost => if c.primary = some p then s.modCtx n Context.armFailover else s
  | .locked =>
    if c.alternate = some p ∧ s.portIs c.primary .lost then s.modCtx n Context.armFailover else s
  | .brk =>
    if c.activePort = some p ∧ c.follow = true ∧ c.state = .running then s.enterStandby n else s
  | .down | .hunt | .holdover => s

/-- A port announces a change of its state to the screen contexts (R8). -/
def State.announce (s : State) (p : Fin 12) (st : PortState) : State := forScreens (State.hearAnnouncement p st) s

/-- A slip event of a port reaches the screens whose active source it is, as an occurrence of SLIP (R8, R49, R113). -/
def State.slipEvent (s : State) (p : Fin 12) : State :=
  forScreens (fun n s => if s.screens[n].ctx.activePort = some p then s.occur n slipId else s) s

/-! ### Source requests and the boundary's settling -/

/-- A source request is taken: it replaces the requested source and clears failover due (R51). -/
def Context.takeRequest (role : SourceRole) (c : Context) : Context :=
  { c with requested := some role, failoverDue := false }

/-- A switch of active source to a role (R52), on the port configured in it now. DEDUCED: where SCREEN-SET has changed that port since
the last boundary, the role is not selected again at this one (assumption log 8). -/
def Context.switchTo (role : SourceRole) (c : Context) : Context :=
  { c with active := activeOf role, activePort := c.portOf role }

/-- The settling of the active source at a master block boundary (R52). The Bool tells a switch. -/
def Context.settle (primaryLost alternateLocked : Bool) (c : Context) : Context × Bool :=
  if c.state = .dark then ({ c with requested := none, active := .none }, false)
  else match c.requested with
    | some role =>
      let c := { c with requested := none }
      if (c.portOf role).isSome ∧ c.active ≠ activeOf role then (c.switchTo role, true) else (c, false)
    | none =>
      if c.failoverDue then
        let c := { c with failoverDue := false }
        if c.state = .running ∧ c.active = .primary ∧ primaryLost = true ∧ alternateLocked = true then
          ({ c.switchTo .alternate with failovers := bump c.failovers }, true)
        else (c, false)
      else (c, false)

/-- The selection made again after SCREEN-SET changed the source ports (R53). The Bool tells a switch. DEDUCED: the port of the active
role has changed where it is not the port in use, so a role that R52 has just switched to stays (assumption log 8). -/
def Context.reselect (c : Context) : Context × Bool :=
  if c.state = .dark then (c, false)
  else
    let stale := match c.active with
      | .primary => decide (c.activePort ≠ c.primary)
      | .alternate => decide (c.activePort ≠ c.alternate)
      | .none => c.primary.isSome || c.alternate.isSome
    if stale then (c.selectSource, true) else (c, false)

/-- The resolved tag and the FORMAT condition (R55). -/
def Context.resolve (valid : Nat → Bool) (c : Context) : Context :=
  match c.override.filter valid, c.descTag.filter valid with
  | some t, _ => { c with resolved := t, formatCond := false }
  | none, some t => { c with resolved := t, formatCond := false }
  | none, none => { c with resolved := c.fallback, formatCond := true }

/-- The screen context's work at a master block boundary: source settled, reselected, and the format tag resolved (R52,
R53, R55). A switch resets the screen's steering (R52, R73). -/
def State.settleScreen (n : Fin 8) (s : State) : State :=
  let c := s.screens[n].ctx
  let first := c.settle (s.portIs c.primary .lost) (s.portIs c.alternate .locked)
  let second := first.1.reselect
  let s := s.modCtx n fun _ => second.1.resolve s.validTag
  if first.2 || second.2 then s.modDec n Decoder.resetSteering else s

/-- The SOURCE condition: a primary source port is configured and LOST (R53). -/
def State.sourceCondition (s : State) (n : Fin 8) : Bool := s.portIs s.screens[n].ctx.primary .lost

end Sys2Proof.Machine
end

