-- ==== Sys2Proof/Machine/Cues.lean ====
section
/-! DEFINITION. The cue engine (chapter 7): the cue lists and the pool, the handling of each kind of position update, the
firing of a cue, and the delivery of position updates and position lost to the screens (section 3.6). -/

namespace Sys2Proof.Machine

/-! ### Cue lists -/

/-- List order: ascending by trigger position, and then by cue id (R134). -/
def Cue.before (a b : Cue) : Bool :=
  decide (a.trigger.toNat < b.trigger.toNat) || (a.trigger == b.trigger && decide (a.id < b.id))

/-- Place a cue in a list at the point its trigger position and cue id give (R134). -/
def placeCue (c : Cue) : List Cue → List Cue
  | [] => [c]
  | d :: ds => if c.before d then c :: d :: ds else d :: placeCue c ds

/-- The cue of a screen's list with an id (R134). -/
def findCue (id : Nat) (l : List Cue) : Option Cue := l.find? fun c => c.id == id

/-- Remove the cue with an id from a list. -/
def removeCue (id : Nat) (l : List Cue) : List Cue := l.filter fun c => c.id != id

/-- Change the cue with an id in place. -/
def updateCue (id : Nat) (f : Cue → Cue) (l : List Cue) : List Cue :=
  l.map fun c => if c.id == id then f c else c

/-- A cue returned to ARMED with no outcome and its load-due mark clear (R153, R155). -/
def Cue.rearm (c : Cue) : Cue := { c with state := .armed, outcome := none, loadDue := false }

/-- A cue is eligible under a program id (R137). -/
def Cue.eligible (program : Long) (c : Cue) : Bool := c.program == 0 || c.program == program

/-! ### Firing -/

/-- The quiet interval's end as a QUIET cue leaves it, and the opening told to the meter and alarm unit (R147). -/
def State.takeQuiet (s : State) (n : Fin 8) (d : Nat) : State :=
  if d = 0 then s.setQuiet n none
  else
    let t := s.setQuiet n (some (s.blockCounter + BitVec.ofNat 32 d))
    if s.screens[n].quiet.isSome then t else t.quietOpens n

/-- Whether a cue's action is DECLINED at this moment (R142). -/
def State.declines (s : State) (n : Fin 8) (a : CueAction) : Bool :=
  match a with
  | .contact line _ => match index? 16 line with
    | some l => !(s.lines[l].drivenBy n)
    | none => true
  | .format (some tag) => !(s.validTag tag)
  | .source role => (s.screens[n].ctx.portOf role).isNone
  | .quiet _ => s.screens[n].ctx.state != .running
  | .format none | .fade _ _ | .mute _ | .eqBank _ | .mark _ => false

/-- A cue's action applied at the owning block (R143 to R147). -/
def State.applyAction (s : State) (n : Fin 8) (id : Nat) (a : CueAction) : State :=
  match a with
  | .contact line d => match index? 16 line with
    | some l => s.modLine l (Line.drive s.blockCounter d)
    | none => s
  | .fade t d => s.takeFade n t d
  | .mute on => s.takeMute n on
  | .eqBank x => s.modEng n (Engine.select x)
  | .format tag => s.modCtx n fun c => { c with override := tag }
  | .source role => s.modCtx n (Context.takeRequest role)
  | .quiet d => s.takeQuiet n d
  | .mark level => s.modMon n (Monitor.pushMark { cue := id, level })

/-- The outcome of firing an action now (R142). -/
def State.outcomeOf (s : State) (n : Fin 8) (a : CueAction) : CueOutcome :=
  if s.declines n a then .declined else .applied

/-- A cue fires: its action is applied or DECLINED, and it becomes FIRED with its load-due mark clear (R142). -/
def State.fireCue (s : State) (n : Fin 8) (c : Cue) : State :=
  let outcome := s.outcomeOf n c.action
  let t := if s.declines n c.action then s else s.applyAction n c.id c.action
  t.modCues n (updateCue c.id fun k => { k with state := .fired, outcome := some outcome, loadDue := false })

/-! ### Handling a position update -/

/-- The four classifications of a position update (R57). -/
inductive Step where
  | newProgram | single | forward | backward
deriving DecidableEq, Repr

/-- The classification of an update against the last program id and the last evaluated position (R57). -/
def classifyUpdate (lastProgram lastPosition : Option Long) (program position : Long) : Step :=
  match lastProgram, lastPosition with
  | some n, some p =>
    if program ≠ n then .newProgram
    else if position.toNat = p.toNat + 1 then .single
    else if position.toNat > p.toNat + 1 then .forward
    else .backward
  | _, _ => .newProgram

/-- What the handling of an update does with one cue. -/
inductive CueFate where
  | leave | fire | miss | pass
deriving DecidableEq, Repr

/-- At a STEP, and in the fire pass of a BACKWARD JUMP, an eligible ARMED cue at or below the position, or with its
load-due mark set, fires (R138, R140). -/
def fateAtStep (program position : Long) (c : Cue) : CueFate :=
  if c.eligible program = true ∧ c.state = .armed ∧ (c.loadDue = true ∨ c.trigger.toNat ≤ position.toNat) then .fire
  else .leave

/-- At a FORWARD JUMP or a NEW PROGRAM (R139). -/
def fateAtJump (window : Nat) (program position : Long) (c : Cue) : CueFate :=
  if c.eligible program = true ∧ c.state = .armed then
    if c.loadDue then .fire
    else if position.toNat < c.trigger.toNat then .leave
    else if c.catchUp then
      if position.toNat - c.trigger.toNat ≤ window then .fire else .miss
    else .pass
  else .leave

/-- Act on one cue of the list, found by its id (R138, R139, R141): a cue that turns MISSED raises one CUE
occurrence as it turns. -/
def State.handleCue (fate : Cue → CueFate) (n : Fin 8) (id : Nat) (s : State) : State :=
  match findCue id s.screens[n].cues with
  | none => s
  | some c => match fate c with
    | .leave => s
    | .fire => s.fireCue n c
    | .miss => (s.modCues n (updateCue id fun k => { k with state := .missed, outcome := none })).occur n cueId
    | .pass => s.modCues n (updateCue id fun k => { k with state := .passed, outcome := none })

/-- Go through a screen's list in list order (R134, R141). -/
def State.passCues (fate : Cue → CueFate) (n : Fin 8) (s : State) : State :=
  forEach (s.screens[n].cues.map (·.id)) (State.handleCue fate n) s

/-- The re-arm pass of a BACKWARD JUMP (R140). -/
def rearmAhead (program position : Long) (c : Cue) : Cue :=
  if c.eligible program = true ∧ position.toNat < c.trigger.toNat ∧ c.state ≠ .armed then
    { c with state := .armed, outcome := none }
  else c

/-- The load-due mark of a cue found eligible at the update is cleared (R141). -/
def clearLoadDue (program : Long) (c : Cue) : Cue :=
  if c.eligible program then { c with loadDue := false } else c

/-- The cue engine's handling of one classified update (R138 to R141). -/
def State.handleUpdate (s : State) (n : Fin 8) (cls : Step) (program position : Long) : State :=
  let t := match cls with
    | .single => s.passCues (fateAtStep program position) n
    | .forward | .newProgram => s.passCues (fateAtJump s.screens[n].ctx.window program position) n
    | .backward => (s.modCues n (List.map (rearmAhead program position))).passCues (fateAtStep program position) n
  t.modCues n (List.map (clearLoadDue program))

/-! ### Delivery to the screens -/

/-- The follow-source transition of a position update (R48). -/
def State.followUpdate (s : State) (n : Fin 8) (play : Bool) : State :=
  let c := s.screens[n].ctx
  if c.follow = true ∧ c.state = .standby ∧ play = true then s.enterRunning n
  else if c.follow = true ∧ c.state = .running ∧ play = false then s.enterStandby n
  else s

/-- A screen takes a position update in the state it is then in (R54, R56, R59). -/
def State.takeUpdate (s : State) (n : Fin 8) (u : Update) : State :=
  let c := s.screens[n].ctx
  let t := if c.state = .running then
      s.handleUpdate n (classifyUpdate c.lastProgram c.lastPosition u.program u.position) u.program u.position
    else s
  t.modCtx n fun c =>
    { c with lastProgram := some u.program, lastPosition := some u.position, positionLost := false
             descTag := some u.tag }

/-- A position update raised by a port reaches one screen, where the port is its active source port (R8, R49, R56). -/
def State.hearUpdate (p : Fin 12) (u : Update) (n : Fin 8) (s : State) : State :=
  if s.screens[n].ctx.activePort = some p ∧ s.screens[n].ctx.state ≠ .dark then (s.followUpdate n u.play).takeUpdate n u
  else s

/-- A position update is raised to the screens (R15, R16). -/
def State.raiseUpdate (s : State) (p : Fin 12) (u : Update) : State := forScreens (State.hearUpdate p u) s

/-- Position lost reaches one screen from its active source port (R48, R54, R58). DEDUCED: one with fields replaces the tag and stops
the screen also while the flag is already set; R58's "change nothing more" is read of the flag alone (assumption log 32). -/
def State.hearLost (p : Fin 12) (fields : Option LostFields) (n : Fin 8) (s : State) : State :=
  let c := s.screens[n].ctx
  if c.activePort = some p ∧ c.state ≠ .dark then
    match fields with
    | none => s.modCtx n fun c => { c with positionLost := true }
    | some f =>
      let s := if c.follow = true ∧ c.state = .running ∧ f.play = false then s.enterStandby n else s
      s.modCtx n fun c => { c with positionLost := true, descTag := some f.tag }
  else s

/-- Position lost is raised to the screens (R15, R16). -/
def State.raiseLost (s : State) (p : Fin 12) (fields : Option LostFields) : State :=
  forScreens (State.hearLost p fields) s

/-! ### The quiet interval's end -/

/-- A quiet interval whose end is `counter` closes (R148). -/
def State.endQuiet (counter : Long) (n : Fin 8) (s : State) : State :=
  if s.screens[n].quiet = some counter then s.setQuiet n none else s

end Sys2Proof.Machine
end

