-- ==== Sys2Proof/Machine/Notices.lean ====
section
/-! DEFINITION. The notice unit and the return channel arbiters (chapter 8): candidates and the choice of a notice, the
response queue, grants, the sending of words, sent and abandoned messages, reloads and expiries. -/

namespace Sys2Proof.Machine

/-! ### Payload words (R193), needed here for the notice message -/

/-- A quantity that fits 16 bits, in one word (R193). -/
def wordOf (n : Nat) : Word := BitVec.ofNat 16 n

/-- A 32-bit quantity in two words, high word first (R193). -/
def longWords (x : Long) : List Word := [x.extractLsb' 16 16, x.extractLsb' 0 16]

/-- An optional item: a choice word, 0 followed by the item's words, or 1 (R193). -/
def optWords {α : Type} (f : α → List Word) : Option α → List Word
  | some a => 0 :: f a
  | none => [1]

/-- A flag or an on-or-off value: 0 for set or on, 1 for clear or off (R193). -/
def flagWord (b : Bool) : Word := if b then 0 else 1

/-- A flag whose owning rule names clear first, in one word: clear 0, set 1 (the started flag, R12; assumption log 13). -/
def clearFirstWord (b : Bool) : Word := if b then 1 else 0

/-- The instance states numbered in the order R127 names them. -/
def alarmStateCode : AlarmState → Nat
  | .clear => 0
  | .qualifying => 1
  | .raised => 2
  | .releasing => 3

/-! ### Choosing -/

/-- A candidate's level qualifies: 0, 1 or 2, and lower than the ceiling (R161). -/
def qualifies (ceiling level : Nat) : Bool := decide (level ≤ 2) && decide (level < ceiling)

/-- The qualifying alarm candidate of lowest level and then lowest id (R161, R162). -/
def Screen.alarmCandidate (x : Screen) : Option (Fin 54) :=
  (List.finRange 54).foldl (fun best id =>
    if x.mon.pending[id] = some false ∧ qualifies x.notice.ceiling (x.mon.levelOf id) = true then
      match best with
      | none => some id
      | some k => if x.mon.levelOf id < x.mon.levelOf k then some id else some k
    else best) none

/-- The qualifying mark candidate: the head of the mark queue (R161). -/
def Screen.markCandidate (x : Screen) : Option Mark :=
  match x.mon.marks with
  | m :: _ => if qualifies x.notice.ceiling m.level then some m else none
  | [] => none

/-- The candidate taken, with its level: of equal levels an alarm goes before a mark (R162). -/
def Screen.candidate (x : Screen) : Option (NoticeSource × Nat) :=
  match x.alarmCandidate, x.markCandidate with
  | some id, some m =>
    if x.mon.levelOf id ≤ m.level then some (.alarm id, x.mon.levelOf id) else some (.mark m.cue, m.level)
  | some id, none => some (.alarm id, x.mon.levelOf id)
  | none, some m => some (.mark m.cue, m.level)
  | none, none => none

/-- The payload of a notice message (R163). -/
def noticePayload (x : Screen) (src : NoticeSource) (level : Nat) (counter : Long) : List Word :=
  (match src with
    | .alarm id => [0, wordOf id.val, wordOf level, 0, wordOf (alarmStateCode x.mon.alarms[id].state)]
    | .mark cue => [1, wordOf cue, wordOf level, 1]) ++
  longWords counter ++ optWords longWords x.ctx.lastPosition

/-- The message kind NOTICE (R193). -/
def noticeKind : BitVec 11 := 64

/-- A screen number as the four bits of a service word. -/
def screenBits (n : Fin 8) : BitVec 4 := BitVec.ofNat 4 n.val

/-- The notice message of a screen for a candidate taken (R163). -/
def State.noticeWords (s : State) (n : Fin 8) (route : Route) (src : NoticeSource) (level : Nat) : List Word :=
  let x := s.screens[n]
  mkMessage route.node s.node (kindWord false noticeKind (screenBits n)) x.notice.sequence
    (noticePayload x src level s.blockCounter)

/-- What the choice changes in the meter and alarm unit: the noticed mark, or the removal of the head mark (R161,
R162). -/
def Monitor.noticed (src : NoticeSource) (m : Monitor) : Monitor :=
  match src with
  | .alarm id => { m with pending := m.pending.set id.val (some true) }
  | .mark _ => { m with marks := dropLevelThree m.marks.tail }

/-- What the choice changes in the notice unit (R162). -/
def NoticeUnit.push (src : NoticeSource) (level : Nat) (words : List Word) (u : NoticeUnit) : NoticeUnit :=
  { u with stack := { saved := u.ceiling, source := src, level, tag := u.sequence } :: u.stack
           ceiling := level
           unsent := some { words, tag := u.sequence, sending := false }
           sequence := u.sequence + 1 }

/-- The notice unit's choice for a screen, where its three conditions hold together (R162). -/
def State.choose (n : Fin 8) (s : State) : State :=
  let x := s.screens[n]
  match x.ctx.route, x.notice.unsent, x.candidate with
  | some route, none, some (src, level) =>
    let words := s.noticeWords n route src level
    s.modScreen n fun x => { x with mon := x.mon.noticed src, notice := x.notice.push src level words }
  | _, _, _ => s

/-! ### Requesters -/

/-- The cyclic order RESP, screen 0 to screen 7 (R169). -/
def requesterOrder : List Requester := .resp :: (List.finRange 8).map .screen

/-- The place of a requester in the cyclic order. -/
def requesterIndex : Requester → Nat
  | .resp => 0
  | .screen n => n.val + 1

/-- The cyclic order beginning after a requester and ending with it, or with RESP first where there is none (R170,
R171). -/
def orderAfter : Option Requester → List Requester
  | none => requesterOrder
  | some q => requesterOrder.drop (requesterIndex q + 1) ++ requesterOrder.take (requesterIndex q + 1)

/-- Whether a requester waits at a port's arbiter (R169). -/
def State.waits (s : State) (p : Fin 12) : Requester → Bool
  | .resp => !s.arbiters[p].queue.isEmpty
  | .screen n => match s.screens[n].ctx.route, s.screens[n].notice.unsent with
    | some r, some u => r.port == p && !u.sending
    | _, _ => false

/-- A requester's weight W at a port (R169). -/
def State.weightOf (s : State) (p : Fin 12) : Requester → Nat
  | .resp => s.arbiters[p].respWeight
  | .screen n => match s.screens[n].ctx.route with
    | some r => r.weight
    | none => 1

/-- A requester's remaining guaranteed count (R169). -/
def Arbiter.leftOf (a : Arbiter) : Requester → Nat
  | .resp => a.respLeft
  | .screen n => a.screenLeft[n]

/-- A guaranteed grant uses one of the requester's remaining count and makes it the last guaranteed grant (R170). -/
def Arbiter.useGuarantee (q : Requester) (a : Arbiter) : Arbiter :=
  match q with
  | .resp => { a with respLeft := a.respLeft - 1, lastGranted := some .resp }
  | .screen n => { a with screenLeft := a.screenLeft.set n.val (a.screenLeft[n] - 1), lastGranted := some (.screen n) }

/-- The requester of a guaranteed grant, if there is one (R170). -/
def State.guaranteed (s : State) (p : Fin 12) : Option Requester :=
  (orderAfter s.arbiters[p].lastGranted).find? fun q => s.waits p q && decide (1 ≤ s.arbiters[p].leftOf q)

/-- The requester of a rotation grant and its burst count, if there is one (R171). -/
def State.rotation (s : State) (p : Fin 12) : Option (Requester × Nat) :=
  let a := s.arbiters[p]
  let turn := ((orderAfter a.holder).find? (s.waits p)).map fun q => (q, 1)
  match a.holder with
  | some q => if s.waits p q = true ∧ a.burst < s.weightOf p q then some (q, a.burst + 1) else turn
  | none => turn

/-- The granted message takes the channel: a response leaves the head of its queue, and a notice becomes the one being
sent (R172). -/
def State.occupy (s : State) (p : Fin 12) (q : Requester) : State :=
  match q with
  | .resp => s.modArb p fun a => match a.queue with
    | r :: rest => { a with queue := rest
                            channel := some { owner := .resp, words := r.words, sent := 0, forReset := r.forReset } }
    | [] => a
  | .screen n => match s.screens[n].notice.unsent with
    | some u =>
      (s.modArb p fun a =>
        { a with channel := some { owner := .screen n, words := u.words, sent := 0, forReset := false } }).modNotice n
        fun v => { v with unsent := some { u with sending := true } }
    | none => s

/-- The arbiter's grant, where the port is LOCKED, the channel is free and a requester waits (R170, R171). -/
def State.grant (s : State) (p : Fin 12) : State :=
  if s.ports[p].state = .locked ∧ s.arbiters[p].channel = none then
    match s.guaranteed p with
    | some q => (s.modArb p (Arbiter.useGuarantee q)).occupy p q
    | none => match s.rotation p with
      | some (q, burst) => (s.modArb p fun a => { a with holder := some q, burst }).occupy p q
      | none => s
  else s

/-! ### Messages that leave the channel -/

/-- The response to a PART-RESET has been sent, has expired or has been abandoned: the reset is due (R188). -/
def State.resetDue (s : State) : State :=
  { s with resetPending := s.resetPending.map fun r => { r with due := true } }

/-- A screen's notice is released, and may be counted lost (R172). -/
def NoticeUnit.release (lost : Bool) (u : NoticeUnit) : NoticeUnit :=
  { u with unsent := none, lost := if lost then bump u.lost else u.lost }

/-- The message on a channel leaves it, and its owner is released (R172). -/
def State.freeChannel (s : State) (p : Fin 12) (m : Sending) (lost : Bool) : State :=
  let t := s.modArb p fun a => { a with channel := none }
  match m.owner with
  | .resp => if m.forReset then t.resetDue else t
  | .screen n => t.modNotice n (NoticeUnit.release lost)

/-- A message whose END word has been sent is complete: the channel becomes free (R172). -/
def State.messageSent (p : Fin 12) (s : State) : State :=
  match s.arbiters[p].channel with
  | some m => if m.words.length ≤ m.sent then s.freeChannel p m false else s
  | none => s

/-- The port leaves LOCKED: a message being sent is abandoned and counted (R172). A message whose END word has been
sent is complete. -/
def State.abandonMessage (s : State) (p : Fin 12) : State :=
  match s.arbiters[p].channel with
  | some m =>
    if m.words.length ≤ m.sent then s.freeChannel p m false
    else (s.modArb p fun a => { a with messagesAbandoned := bump a.messagesAbandoned }).freeChannel p m true
  | none => s

/-! ### Timed work -/

/-- A reload: every requester's remaining count becomes its G, T takes the next interval, and the remainder is loaded with
T (R169). -/
def State.reload (s : State) (p : Fin 12) : State :=
  s.modArb p fun a =>
    { a with respLeft := a.respCount
             screenLeft := Vector.ofFn fun n => match s.screens[n].ctx.route with
               | some r => if r.port = p then r.count else 0
               | none => 0
             interval := a.nextInterval, remainder := a.nextInterval }

/-- The arbiter's share of a master block boundary: the interval remainder decreases by one, and at 0 it reloads (R169). -/
def State.tickArbiter (p : Fin 12) (s : State) : State :=
  if s.arbiters[p].remainder ≤ 1 then s.reload p
  else s.modArb p fun a => { a with remainder := a.remainder - 1 }

/-- Whether a response has seen its fourth service tick when the block counter stands at `counter` (R168). -/
def Response.expired (counter : Long) (r : Response) : Bool := decide (4 ≤ ticksSince r.placedAt counter)

/-- The oldest response expires at a service tick: it is removed and counted (R168). -/
def State.expireOne (counter : Long) (p : Fin 12) (s : State) : State :=
  match s.arbiters[p].queue with
  | r :: rest =>
    if serviceTick counter && r.expired counter then
      let t := s.modArb p fun a => { a with queue := rest, responsesExpired := bump a.responsesExpired }
      if r.forReset then t.resetDue else t
    else s
  | [] => s

/-- Every response due at a service tick expires; the queue holds at most four (R168). -/
def State.expireResponses (counter : Long) (p : Fin 12) (s : State) : State :=
  forEach (List.range 4) (fun _ => State.expireOne counter p) s

end Sys2Proof.Machine
end

