-- ==== Sys2Proof/Machine/Ports.lean ====
section
/-! DEFINITION. The program port receivers' shared operations (chapter 1): port states, the elastic buffer, fast drop,
descriptor assembly, service assembly, counters and the first-error capture record. -/

namespace Sys2Proof.Machine

/-! ### Counters and the capture record -/

/-- Change a port's counters (R20). -/
def State.count (s : State) (p : Fin 12) (f : PortCounters → PortCounters) : State :=
  s.modPort p fun x => { x with counters := f x.counters }

/-- One more service message discarded (R20). -/
def PortCounters.discard (c : PortCounters) : PortCounters := { c with discarded := bump c.discarded }

/-- An error offered to the first-error capture record: it fills an empty record and sets MORE in a full one (R21). -/
def Port.capturing (kind : ErrorKind) (index : Option Nat) (counter : Long) (x : Port) : Port :=
  match x.capture with
  | none => { x with capture := some { kind, index, counter, lastGood := x.lastGood, more := false } }
  | some c => { x with capture := some { c with more := true } }

/-- Offer an error to a port's capture record (R21). -/
def State.offerError (s : State) (p : Fin 12) (kind : ErrorKind) (index : Option Nat) (counter : Long) : State :=
  s.modPort p (Port.capturing kind index counter)

/-- A service message is discarded with a count and an offer of kind SERVICE (R17, R18, R19, R7). -/
def State.discardMessage (s : State) (p : Fin 12) (index : Option Nat) (counter : Long) : State :=
  (s.count p PortCounters.discard).offerError p .service index counter

/-! ### Port states -/

/-- What every exit from LOCKED does to the port itself (R3, R10, R11). -/
def Port.exitLocked (x : Port) : Port :=
  { x with buffer := [], started := false, lastFrame := none, window := none, attempt := none, base := none
           goodRun := 0, expected := none }

/-- The port leaves LOCKED for another state: a message being sent is abandoned and the change is announced (R3, R8,
R172). -/
def State.leaveLocked (s : State) (p : Fin 12) (st : PortState) : State :=
  let t := s.modPort p fun x =>
    { x.exitLocked with state := st, holdoverLeft := if st = .holdover then x.settings.holdover else 0 }
  (t.abandonMessage p).announce p st

/-- The entry to LOCKED with the fourth frame's slots (R2). `next` is the expected index that follows that frame. -/
def Port.enterLocked (slots : Slots) (next : Option Nat) (x : Port) : Port :=
  { x with state := .locked, goodRun := 0, missRun := 0, window := none, buffer := [], started := false
           lastFrame := none, attempt := none, base := none, badRun := 0, lostRaised := false, conceal := slots
           holdoverLeft := 0, expected := next }

/-- What an entry to LOCKED counts: a relock from LOST, a holdover recovery from HOLDOVER (R2, R5). -/
def PortCounters.lockFrom (st : PortState) (c : PortCounters) : PortCounters :=
  match st with
  | .lost => { c with relocks := bump c.relocks }
  | .holdover => { c with recoveries := bump c.recoveries }
  | .down | .hunt | .locked | .brk => c

/-- The entry to BREAK counts one stop entry (R6). -/
def PortCounters.stop (c : PortCounters) : PortCounters := { c with stopEntries := bump c.stopEntries }

/-- The holdover count has run out: the port enters LOST and keeps its good-frame run (R5). -/
def State.loseHoldover (s : State) (p : Fin 12) : State :=
  (s.modPort p fun x => { x with state := .lost, holdoverLeft := 0 }).announce p .lost

/-! ### The elastic buffer -/

/-- The buffer after a write, and whether the write was a slip-drop (R11, R12). -/
def Port.write (slots : Slots) (x : Port) : Port :=
  if x.buffer.length ≥ 32 then
    { x with buffer := x.buffer.tail ++ [slots], started := true
             counters := { x.counters with slips := bump x.counters.slips } }
  else
    { x with buffer := x.buffer ++ [slots], started := x.started || decide (16 ≤ x.buffer.length + 1) }

/-- A frame written to a port's elastic buffer; a slip-drop raises a slip event (R11). -/
def State.writeBuffer (s : State) (p : Fin 12) (slots : Slots) : State :=
  let t := s.modPort p (Port.write slots)
  if s.ports[p].buffer.length ≥ 32 then t.slipEvent p else t

/-- The sixteen slots that a port's reader produces at a master frame (R12). -/
def Port.reading (x : Port) : Slots :=
  if x.state = .locked ∧ x.started = true then
    match x.buffer with
    | oldest :: _ => oldest
    | [] => x.lastFrame.getD silence
  else silence

/-- Whether a master frame's read is a slip-repeat (R12). -/
def Port.repeats (x : Port) : Bool := x.state == .locked && x.started && x.buffer.isEmpty

/-- The port after a master frame's read (R12). -/
def Port.afterRead (x : Port) : Port :=
  if x.state = .locked ∧ x.started = true then
    match x.buffer with
    | oldest :: rest => { x with buffer := rest, lastFrame := some oldest }
    | [] => { x with counters := { x.counters with slips := bump x.counters.slips } }
  else x

/-- A master frame's read of one port, with the slip event of a slip-repeat (R12). -/
def State.readPort (p : Fin 12) (s : State) : State :=
  let t := s.modPort p Port.afterRead
  if s.ports[p].repeats then t.slipEvent p else t

/-! ### Fast drop -/

/-- The fast-drop window after a check error (R9). -/
def Port.widen (x : Port) : DropWindow :=
  match x.window with
  | none => { count := 1, left := x.settings.dropWindow }
  | some w => { w with count := w.count + 1 }

/-- A check error taken in LOCKED (R3, R4, R9, R10): the sync-miss run ends, and the frame is concealed into the buffer or
makes a fast drop. -/
def State.takeCheckError (s : State) (p : Fin 12) (index : Option Nat) : State :=
  let s := s.count p fun c => { c with checkErrors := bump c.checkErrors }
  let s := (s.offerError p .check index s.blockCounter).modPort p fun x => { x with missRun := 0 }
  let x := s.ports[p]
  if x.settings.dropEnable = true ∧ x.settings.dropCount ≤ x.widen.count then
    (s.count p fun c => { c with fastDrops := bump c.fastDrops }).leaveLocked p .lost
  else
    let s := s.modPort p fun x => { x with window := if x.settings.dropEnable then some x.widen else none }
    s.writeBuffer p x.conceal

/-- The fast-drop window's share of a master block boundary: the remainder decreases, and at 0 the window closes (R9). -/
def Port.tickWindow (x : Port) : Port :=
  match x.window with
  | some w => if w.left ≤ 1 then { x with window := none } else { x with window := some { w with left := w.left - 1 } }
  | none => x

/-! ### A frame's effect on the link state and the audio -/

/-- A sync miss in LOCKED: a MISS or MISPLACED frame; the third leaves LOCKED (R3), with the sync-miss run kept at 3 (DEDUCED,
assumption log 20). -/
def State.takeSyncMiss (s : State) (p : Fin 12) (index : Option Nat) : State :=
  let s := s.offerError p .sync index s.blockCounter
  let s := s.modPort p fun x => { x with missRun := x.missRun + 1 }
  if 3 ≤ s.ports[p].missRun then
    s.leaveLocked p (if s.ports[p].settings.holdover = 0 then .lost else .holdover)
  else s

/-- A frame taken in LOCKED (R3, R6). The stop run and the expected index have been advanced already. -/
def State.takeLocked (s : State) (p : Fin 12) (cls : FrameClass) (slots : Slots) (index : Option Nat) : State :=
  match cls with
  | .good => (s.modPort p fun x => { x with conceal := slots, missRun := 0 }).writeBuffer p slots
  | .checkError => s.takeCheckError p index
  | .stop =>
    let s := s.modPort p fun x => { x with missRun := 0 }
    if 8 ≤ s.ports[p].stopRun then (s.count p PortCounters.stop).leaveLocked p .brk else s.writeBuffer p silence
  | .miss | .misplaced => s.takeSyncMiss p index

/-- What a frame taken in HOLDOVER counts and captures (R5). -/
def State.holdoverErrors (s : State) (p : Fin 12) (cls : FrameClass) (index : Option Nat) : State :=
  match cls with
  | .checkError =>
    (s.count p fun c => { c with checkErrors := bump c.checkErrors }).offerError p .check index s.blockCounter
  | .miss | .misplaced => s.offerError p .sync index s.blockCounter
  | .good | .stop => s

/-- A frame taken in HUNT, HOLDOVER, LOST or BREAK, where a good-frame run is counted (R2, R5, R6). `next` is the
expected index after the frame. -/
def State.takeSeeking (s : State) (p : Fin 12) (cls : FrameClass) (slots : Slots) (next : Option Nat) : State :=
  let st := s.ports[p].state
  let run := nextGoodRun s.ports[p].goodRun cls
  let s := s.modPort p fun x => { x with goodRun := run, expected := if run = 0 then none else next }
  if st ≠ .brk ∧ 8 ≤ s.ports[p].stopRun then
    ((s.count p PortCounters.stop).modPort p fun x => { x with state := .brk, holdoverLeft := 0 }).announce p .brk
  else if st = .brk ∧ cls = .good then
    (s.modPort p fun x => { x with state := .hunt, goodRun := 1 }).announce p .hunt
  else if 4 ≤ run then
    ((s.count p (PortCounters.lockFrom st)).modPort p (Port.enterLocked slots next)).announce p .locked
  else s

/-- The stop run after a frame (R6). -/
def nextStopRun (run : Nat) (cls : FrameClass) : Nat :=
  match cls with
  | .stop => min 8 (run + 1)
  | .good | .misplaced | .checkError | .miss => 0

/-- A frame's effect on the port state, its runs and the elastic buffer (R2 to R6, R9, R11). -/
def State.takeLinkFrame (s : State) (p : Fin 12) (cls : FrameClass) (slots : Slots) (carried : Nat)
    (index : Option Nat) : State :=
  let x := s.ports[p]
  let next := nextExpected x.expected cls carried
  let s := s.modPort p fun x => { x with stopRun := nextStopRun x.stopRun cls }
  match x.state with
  | .down => s
  | .locked => (s.modPort p fun x => { x with expected := next }).takeLocked p cls slots index
  | .holdover => (s.holdoverErrors p cls index).takeSeeking p cls slots next
  | .hunt | .lost | .brk => s.takeSeeking p cls slots next

/-! ### Descriptor assembly -/

/-- The place of the first unknown byte of an attempt (R14). -/
def firstUnknown (bytes : List (Option Byte)) : Option Nat := bytes.findIdx? Option.isNone

/-- The known bytes of an attempt, where all are known. -/
def allKnown {α : Type} : List (Option α) → Option (List α)
  | [] => some []
  | none :: _ => none
  | some a :: rest => (allKnown rest).map (a :: ·)

/-- A good descriptor (R15). -/
def State.goodDescriptor (s : State) (p : Fin 12) (u : Update) : State :=
  if u.posValid then
    (s.modPort p fun x => { x with base := some u, badRun := 0, lastGood := some u.position, lostRaised := false })
      |>.raiseUpdate p u
  else
    (s.modPort p fun x => { x with base := none, badRun := 0, lostRaised := true })
      |>.raiseLost p (some { program := u.program, tag := u.tag, play := u.play, posValid := u.posValid })

/-- The inferred position: the base position plus 1. Past the top of the range the spec states no position, and `free`
stands for it (R16, assumption log 7). -/
def inferredPosition (position free : Long) : Long :=
  if position = BitVec.allOnes 32 then free else position + 1

/-- What a bad descriptor raises, once its run has been advanced (R16). -/
def State.badDescriptor (s : State) (p : Fin 12) (index : Option Nat) : State :=
  let s := s.offerError p .descriptor index s.blockCounter
  let s := s.modPort p fun x => { x with badRun := min 9 (x.badRun + 1) }
  let x := s.ports[p]
  match x.base with
  | some b =>
    if x.badRun ≤ 8 then
      let u := { b with position := inferredPosition b.position (Config.freePosition s.freeCount), inferred := true }
      let s := { s with freeCount := s.freeCount + 1 }
      (s.modPort p fun x => { x with base := some u }).raiseUpdate p u
    else (s.modPort p fun x => { x with base := none, lostRaised := true }).raiseLost p none
  | none =>
    if x.lostRaised then s
    else (s.modPort p fun x => { x with lostRaised := true }).raiseLost p none

/-- A completed descriptor attempt (R14). `last` is the frame index of a bad descriptor whose bytes were all known. -/
def State.completeDescriptor (s : State) (p : Fin 12) (bytes : List (Option Byte)) (last : Nat) (broken : Bool) : State :=
  let bad := s.badDescriptor p (some ((firstUnknown bytes).getD last))
  if broken then bad
  else match (allKnown bytes).bind parseDescriptor with
    | some u => s.goodDescriptor p u
    | none => bad

/-- The header byte an arrival adds to an attempt: known from a GOOD frame alone (R14). -/
def byteOf (cls : FrameClass) (byte : Byte) : Option Byte :=
  match cls with
  | .good => some byte
  | .checkError | .stop | .miss | .misplaced => none

/-- The descriptor assembler at an arrival in LOCKED whose expected index was `e` (R14). -/
def State.takeHeaderByte (s : State) (p : Fin 12) (cls : FrameClass) (byte : Byte) (e : Nat) : State :=
  let attempt := if e = 0 then some [] else s.ports[p].attempt
  match attempt with
  | none => s
  | some bytes =>
    if 11 < e then s
    else if cls = .misplaced then
      (s.modPort p fun x => { x with attempt := none }).completeDescriptor p bytes e true
    else
      let bytes := bytes ++ [byteOf cls byte]
      if e = 11 then (s.modPort p fun x => { x with attempt := none }).completeDescriptor p bytes 11 false
      else s.modPort p fun x => { x with attempt := some bytes }

/-! ### Service assembly -/

/-- What a completed message turns out to be (R19). -/
inductive MessageVerdict where
  | tooShort | badCheck | notOurs | ours
deriving DecidableEq, Repr

/-- The checks of a completed message, in the order of R19. `words` ends in the END word. -/
def judgeMessage (node : Byte) (words : List Word) : MessageVerdict :=
  if words.length < 4 then .tooShort
  else if messageCheck words.dropLast ≠ words.getLastD 0 then .badCheck
  else if (words.headD 0).extractLsb' 8 8 ≠ node then .notOurs
  else .ours

/-- A message begun by its START word (R17). -/
def beginMessage (word : Word) : Assembly := { words := [word], source := word.extractLsb' 0 8, ticks := 0 }

/-- The service assembler at a frame (R17, R19). The second value is a message complete in itself that goes to the
service unit. -/
def State.takeServiceWord (s : State) (p : Fin 12) (cls : FrameClass) (code : ServiceCode) (word : Word)
    (index : Option Nat) : State × Option (List Word) :=
  let idle := s.modPort p fun x => { x with assembly := none }
  match cls with
  | .good | .stop =>
    match code, s.ports[p].assembly with
    | .idle, _ => (s, none)
    | .start, none => (s.modPort p fun x => { x with assembly := some (beginMessage word) }, none)
    | .start, some _ =>
      ((s.discardMessage p index s.blockCounter).modPort p fun x => { x with assembly := some (beginMessage word) }, none)
    | .data, none => (s, none)
    | .data, some a =>
      if a.words.length ≥ 63 then (idle.discardMessage p index s.blockCounter, none)
      else (s.modPort p fun x => { x with assembly := some { a with words := a.words ++ [word] } }, none)
    | .fin, none => (s, none)
    | .fin, some a =>
      match judgeMessage s.node (a.words ++ [word]) with
      | .tooShort | .badCheck => (idle.discardMessage p index s.blockCounter, none)
      | .notOurs => (idle.count p PortCounters.discard, none)
      | .ours => (idle, some (a.words ++ [word]))
  | .checkError | .miss | .misplaced =>
    match s.ports[p].assembly with
    | some _ => (idle.discardMessage p index s.blockCounter, none)
    | none => (s, none)

/-- A message under assembly times out at a service tick (R18). -/
def State.timeoutMessage (s : State) (p : Fin 12) (a : Assembly) (counter : Long) : State :=
  (s.modPort p fun x => { x with assembly := none, lastTimedOut := some a.source }).discardMessage p none counter

/-- The service assembler's share of a service tick: the second after the START word times the message out (R18). -/
def State.tickAssembly (counter : Long) (p : Fin 12) (s : State) : State :=
  match s.ports[p].assembly with
  | some a =>
    if serviceTick counter then
      if 1 ≤ a.ticks then s.timeoutMessage p a counter
      else s.modPort p fun x => { x with assembly := some { a with ticks := a.ticks + 1 } }
    else s
  | none => s

/-! ### The port's share of a master block boundary -/

/-- The holdover count's share of a master block boundary (R5). -/
def State.tickHoldover (p : Fin 12) (s : State) : State :=
  if s.ports[p].state = .holdover then
    if s.ports[p].holdoverLeft ≤ 1 then s.loseHoldover p
    else s.modPort p fun x => { x with holdoverLeft := x.holdoverLeft - 1 }
  else s

/-- A port's share of a master block boundary: holdover count, fast-drop window and service tick (R5, R9, R18). -/
def State.tickPort (counter : Long) (p : Fin 12) (s : State) : State :=
  ((s.unlessTaken (.holdover p) (State.tickHoldover p)).unlessTaken (.window p) fun s => s.modPort p Port.tickWindow)
    |>.unlessTaken (.message p) (State.tickAssembly counter p)

/-! ### Port requests' effects -/

/-- The port's assemblers cleared and all runs at 0 (R7, R25). -/
def Port.restart (x : Port) : Port :=
  { x with goodRun := 0, missRun := 0, stopRun := 0, expected := none, window := none, holdoverLeft := 0
           buffer := [], started := false, lastFrame := none, attempt := none, base := none, badRun := 0
           lostRaised := false, assembly := none }

/-- A port enters DOWN: a message under assembly is discarded and captured, and a message being sent is abandoned (R7,
R172). -/
def State.disablePort (s : State) (p : Fin 12) : State :=
  if s.ports[p].state = .down then s
  else
    let t := if s.ports[p].assembly.isSome then s.discardMessage p none s.blockCounter else s
    let t := t.modPort p fun x => { x.restart with state := .down }
    let t := if s.ports[p].state = .locked then t.abandonMessage p else t
    t.announce p .down

/-- A port is returned to HUNT with all runs at 0 (R7, R25). -/
def State.huntPort (s : State) (p : Fin 12) : State :=
  let t := s.modPort p fun x => { x.restart with state := .hunt }
  let t := if s.ports[p].state = .locked then t.abandonMessage p else t
  t.announce p .hunt

end Sys2Proof.Machine
end

