-- ==== Sys2Proof/Machine/Surround.lean ====
section
/-! DEFINITION. The decode unit (chapter 4): decode, envelopes, steering, the speaker map, fold-down, and the settling of
the working format. -/

namespace Sys2Proof.Machine

/-- The sixteen inputs of a screen's decode, as samples (R66). -/
abbrev Inputs := Vector Int 16

/-- A sample with a mark of whether a saturation changed it. -/
structure Marked where
  value : Int
  clipped : Bool
deriving DecidableEq, Repr

/-- Saturate and mark a change of value (R75, R80, R90, R91). -/
def saturateMarked (x : Int) : Marked := { value := saturate x, clipped := saturate x != x }

/-! ### Decoding (R74) -/

/-- The coefficients a row decodes with: blended when steered, matrix A otherwise (R74). -/
def Decoder.rowCoefs (d : Decoder) (k : Nat) (row : FormatRow) : Vector Int 16 :=
  if d.format.steering.isSome then d.blended.getD k row.a else row.a

/-- The accumulator of a row over the columns below the input channel count (R74). -/
def rowSum (inputs : Nat) (coefs : Vector Int 16) (x : Inputs) : Int :=
  ((List.finRange 16).map fun j => if j.val < inputs then coefs[j] * x[j] else 0).sum

/-- The role signal of a row (R74). -/
def Decoder.rowSignal (d : Decoder) (x : Inputs) (k : Nat) (row : FormatRow) : Marked :=
  saturateMarked (roundBy 14 (rowSum d.format.inputs (d.rowCoefs k row) x))

/-- The signal of a role: that of the row producing it, or zero (R74). -/
def Decoder.roleSignal (d : Decoder) (x : Inputs) (role : Role) : Marked :=
  match (d.format.rows.zipIdx).find? fun e => e.1.role == role with
  | some (row, k) => d.rowSignal x k row
  | none => { value := 0, clipped := false }

/-- The mapped signal of an output channel (R78), marked where its role's saturation clipped (R75). -/
def Decoder.mapped (d : Decoder) (x : Inputs) (k : Fin 16) : Marked :=
  match d.map[k].role with
  | some role => d.roleSignal x role
  | none => { value := 0, clipped := false }

/-! ### Fold-down (R80) -/

/-- Whether output channel `f` is folded onto channel `p` (R79). -/
def Decoder.foldsOnto (d : Decoder) (f p : Fin 16) : Bool := d.folds[f] == .folded p

/-- The contribution of a folded channel to its partner (R80). -/
def Decoder.contribution (d : Decoder) (m : Vector Marked 16) (f : Fin 16) : Int :=
  roundBy 14 (m[f].value * d.map[f].gain)

/-- The contributions folded onto a channel, summed in full (R80). -/
def Decoder.foldedSum (d : Decoder) (m : Vector Marked 16) (p : Fin 16) : Int :=
  ((List.finRange 16).map fun f => if d.foldsOnto f p then d.contribution m f else 0).sum

/-- Channel `p`'s input to the filter engine, marked by the fold's own saturation (R80). -/
def Decoder.channelInput (d : Decoder) (m : Vector Marked 16) (p : Fin 16) : Marked :=
  if d.folds[p] ≠ .normal then { value := 0, clipped := false }
  else if (List.finRange 16).any (fun f => d.foldsOnto f p) then saturateMarked (m[p].value + d.foldedSum m p)
  else { value := m[p].value, clipped := false }

/-- The sixteen mapped signals of a frame (R78). -/
def Decoder.mappedAll (d : Decoder) (x : Inputs) : Vector Marked 16 := Vector.ofFn fun k => d.mapped x k

/-- The sixteen channel inputs of a frame, each marked where the decode or the fold clipped it (R75, R80). -/
def Decoder.channelInputs (d : Decoder) (x : Inputs) : Vector Marked 16 :=
  let m := d.mappedAll x
  Vector.ofFn fun k =>
    let c := d.channelInput m k
    { value := c.value, clipped := c.clipped || m[k].clipped }

/-! ### Steering -/

/-- One envelope's update toward a magnitude (R76). -/
def envelope (shift : Nat) (env mag : Int) : Int := env + asr (mag - env) shift

/-- The envelopes after a frame, in a steered working format (R76). -/
def Decoder.follow (d : Decoder) (x : Inputs) : Decoder :=
  match d.format.steering with
  | none => d
  | some st =>
    let a := x[st.first]
    let b := x[st.second]
    { d with sumEnv := envelope st.shift d.sumEnv (magnitude (asr (a + b) 1))
             diffEnv := envelope st.shift d.diffEnv (magnitude (asr (a - b) 1)) }

/-- The target weight (R77). -/
def targetWeight (sumEnv diffEnv : Int) : Nat :=
  if sumEnv ≤ diffEnv then 0 else (64 * (sumEnv - diffEnv) / (sumEnv + diffEnv)).toNat

/-- The weight moved toward the target by at most the slew (R77). -/
def moveWeight (slew weight target : Nat) : Nat :=
  if target ≤ weight + slew ∧ weight ≤ target + slew then target
  else if weight < target then weight + slew
  else weight - slew

/-- The blended coefficients of a row at a weight (R77). -/
def blendRow (w : Nat) (row : FormatRow) : Vector Int 16 := Vector.ofFn fun j => blend row.a[j] row.b[j] w

/-- The steering update of a master block boundary, for a steered screen in STANDBY or RUNNING (R77). -/
def Decoder.steer (state : ScreenState) (d : Decoder) : Decoder :=
  match state, d.format.steering with
  | .dark, _ => d
  | _, none => d
  | _, some st =>
    let t := targetWeight d.sumEnv d.diffEnv
    let w := moveWeight st.slew d.weight t
    { d with target := t, weight := w, blended := d.format.rows.map (blendRow w) }

/-! ### The boundary's settling -/

/-- The working format settled at a boundary: a fresh copy where the tag differs or the record is stale (R71, R72, R73). -/
def Decoder.settleFormat (tag : Nat) (record : Option FormatRecord) (d : Decoder) : Decoder :=
  if tag ≠ d.tag ∨ d.stale = true then
    match record with
    | some f => { d with tag := tag, format := f, stale := false }.resetSteering
    | none => d
  else d

/-- The working speaker map and fold-down enable copied from the screen record (R72). -/
def Decoder.copyMap (c : Context) (d : Decoder) : Decoder := { d with map := c.map, foldEnable := c.foldEnable }

/-- Presented FAULT or ABSENT (R79). -/
def ChannelState.failed : ChannelState → Bool
  | .fault | .absent => true
  | .ok | .protect => false

/-- The fold status of an output channel (R79). -/
def foldStatus (enable : Bool) (map : Vector MapEntry 16) (presented : Vector ChannelState 16) (f : Fin 16) :
    FoldStatus :=
  if enable = true ∧ presented[f].failed = true then
    match map[f].partner with
    | none => .normal
    | some p => if presented[p].failed then .dropped else .folded p
  else .normal

/-- How many channels turn DROPPED (R81). -/
def newDrops (old new : Vector FoldStatus 16) : Nat :=
  ((List.finRange 16).filter fun f => new[f] == .dropped && old[f] != .dropped).length

/-- The fold statuses formed at a boundary, and the fold losses counted (R79, R81). -/
def Decoder.formFolds (presented : Vector ChannelState 16) (d : Decoder) : Decoder :=
  let folds := Vector.ofFn (foldStatus d.foldEnable d.map presented)
  { d with folds := folds, foldLosses := min 65535 (d.foldLosses + newDrops d.folds folds) }

/-- The decode unit's work for a screen at a master block boundary, in the order of R72, R73, R77 and R79. -/
def State.settleDecoder (n : Fin 8) (s : State) : State :=
  let c := s.screens[n].ctx
  s.modDec n fun d =>
    (((d.settleFormat c.resolved (s.format? c.resolved)).copyMap c).steer c.state).formFolds s.screens[n].link.presented

/-- A COMMIT or CLEAR reaches a tag: the stale flag of every screen whose working format carries it is set (R69 to R71). -/
def State.markStale (s : State) (tag : Nat) : State :=
  forScreens (fun n s => s.modDec n fun d => if d.tag = tag then { d with stale := true } else d) s

end Sys2Proof.Machine
end

