-- ==== Sys2Proof/Machine/Audio.lean ====
section
/-! DEFINITION. The audio path of a master frame after the decode unit (sections 5.3 and 6.1): sections, delay, gain,
crossfade, mute, the meters' running peaks, and the frames sent on the screen ports and the program ports' return
directions. -/

namespace Sys2Proof.Machine

/-! ### Sections, delay and gain -/

/-- One section's output for an input, marked where its saturation changed it (R90). -/
def Section.output (c : Section) (x : Int) : Marked :=
  saturateMarked (roundBy 20
    (c.coefs.b0 * x + c.coefs.b1 * c.x1 + c.coefs.b2 * c.x2 - c.coefs.a1 * c.y1 - c.coefs.a2 * c.y2))

/-- A section's states after an input and its output (R90). -/
def Section.shift (c : Section) (x y : Int) : Section := { c with x2 := c.x1, x1 := x, y2 := c.y1, y1 := y }

/-- A cascade of sections run on an input: the output, whether any section clipped, and the sections as they are left (R90). -/
def runSections (x : Int) : List Section → Marked × List Section
  | [] => ({ value := x, clipped := false }, [])
  | c :: cs =>
    let y := c.output x
    let rest := runSections y.value cs
    ({ value := rest.1.value, clipped := y.clipped || rest.1.clipped }, c.shift x y.value :: rest.2)

/-- The delayed input of a bank with delay `n`: the current input, or the line's entry of n frames before (R89). -/
def delayed (line : List Int) (n : Nat) (x : Int) : Int := if n = 0 then x else line.getD (n - 1) 0

/-- The gain of a bank: round-14 of trim × fader level (R91). -/
def gain (trim fader : Nat) : Int := roundBy 14 ((trim : Int) * fader)

/-- A record's path output for a frame: delay, sections, gain (R88 to R91). -/
def Chain.path (c : Chain) (line : List Int) (fader : Nat) (x : Int) : Marked :=
  let y := (runSections (delayed line c.delay x) c.sections).1
  let out := saturateMarked (roundBy 14 (y.value * gain c.trim fader))
  { value := out.value, clipped := y.clipped || out.clipped }

/-- A record after it has been run for a frame (R85, R90). -/
def Chain.run (c : Chain) (line : List Int) (x : Int) : Chain :=
  { c with sections := (runSections (delayed line c.delay x) c.sections).2 }

/-- A crossfade's frame number advanced by one (R98). -/
def Engine.advanceFade (e : Engine) : Engine :=
  { e with crossfade := e.crossfade.map fun x => { x with frame := x.frame + 1 } }

/-- The pre-mute output of channel `c`, with its clip mark: the active bank's path, or the blend of a crossfade (R88,
R98, R93). -/
def Engine.preMute (e : Engine) (c : Fin 16) (x : Int) : Marked :=
  match e.crossfade with
  | none => (e.bank e.active)[c].path e.lines[c] e.fader x
  | some f =>
    let old := (e.bank (otherBank f.incoming))[c].path e.lines[c] e.fader x
    let new := (e.bank f.incoming)[c].path e.lines[c] e.fader x
    { value := blend old.value new.value f.frame, clipped := old.clipped || new.clipped }

/-- Whether a bank is run in a frame: active, or either bank during a crossfade (R85). -/
def Engine.runs (e : Engine) (k : Bank) : Bool := e.crossfade.isSome || e.active == k

/-- A bank after a frame: its records run where the bank is run (R85). -/
def Engine.runBank (e : Engine) (k : Bank) (x : Inputs) : Vector Chain 16 :=
  if e.runs k then Vector.ofFn fun c => (e.bank k)[c].run e.lines[c] x[c] else e.bank k

/-- A delay line after the current input is written: the newest entry first, at the channel's allocation (R89). -/
def writeLine (allocation : Nat) (line : List Int) (x : Int) : List Int := (x :: line).take allocation

/-- The sixteen outputs of a frame: pre-mute outputs, or zero under mute (R88, R92). -/
def Engine.frameOutputs (e : Engine) (x : Inputs) : Vector Int 16 :=
  Vector.ofFn fun c => if e.mute then 0 else (e.preMute c x[c]).value

/-- The engine after a frame of a screen in STANDBY or RUNNING (R88). The frame number has been advanced already. -/
def Engine.afterFrame (e : Engine) (x : Inputs) : Engine :=
  { e with bankA := e.runBank .a x, bankB := e.runBank .b x
           lines := Vector.ofFn fun c => writeLine (e.delayAllocation c) e.lines[c] x[c]
           outputs := e.frameOutputs x }

/-! ### One screen's frame -/

/-- The meter after an output sample (R108). -/
def Meter.take (m : Meter) (y : Int) : Meter := { m with running := max m.running (magnitude y) }

/-- The slots a screen takes: those of its active source port's reader, or sixteen zeros (R12, R66). -/
def State.screenSlots (s : State) (n : Fin 8) : Slots :=
  match s.screens[n].ctx.activePort with
  | some p => s.ports[p].reading
  | none => silence

/-- The sixteen inputs of a screen's decode, from the slots it takes (R66). -/
def inputsOf (slots : Slots) : Inputs := Vector.ofFn fun j => slots[j].toInt

/-- The sixteen values of marked samples. -/
def values (v : Vector Marked 16) : Inputs := Vector.ofFn fun k => v[k].value

/-- A screen after a master frame with the given inputs: decoded, filtered and metered in STANDBY and RUNNING, and at zero in
DARK (R74, R76, R88, R108). -/
def Screen.frame (x : Inputs) (sc : Screen) : Screen :=
  match sc.ctx.state with
  | .dark => { sc with eng := { sc.eng with outputs := Vector.replicate 16 0 } }
  | .standby | .running =>
    let ins := values (sc.dec.channelInputs x)
    let e := sc.eng.advanceFade.afterFrame ins
    { sc with dec := sc.dec.follow x, eng := e
              mon := { sc.mon with meters := Vector.ofFn fun c => sc.mon.meters[c].take e.outputs[c] } }

/-- The output channels that clipped in a master frame, each once (R75, R80, R93). -/
def Screen.frameClips (x : Inputs) (sc : Screen) : List (Fin 16) :=
  match sc.ctx.state with
  | .dark => []
  | .standby | .running =>
    let m := sc.dec.channelInputs x
    let e := sc.eng.advanceFade
    (List.finRange 16).filter fun c => m[c].clipped || (e.preMute c m[c].value).clipped

/-- One screen's part of a master frame with the given inputs: its audio, then one CLIP occurrence for each channel that
clipped (R113). -/
def State.playScreen (s : State) (n : Fin 8) (x : Inputs) : State :=
  forEach (s.screens[n].frameClips x) (fun c s => s.occur n (clipId c)) (s.modScreen n (Screen.frame x))

/-! ### Frames sent -/

/-- The forward frame a screen port sends (R27, R28, R29). -/
def Screen.forwardFrame (index : Nat) (sc : Screen) : LinkFrame 16 :=
  let byte := if index = 0 then forwardByte sc.link.echo sc.ctx.state else 0
  let slots : Slots := match sc.ctx.state with
    | .dark => silence
    | .standby | .running => Vector.ofFn fun c => BitVec.ofInt 24 sc.eng.outputs[c]
  let sync := if sc.ctx.state = .dark then stopSync else normalSync
  mkFrame (mkHeader sync index .idle byte) slots 0

/-- A screen port sends its forward frame (R27). -/
def State.sendForward (index : Nat) (n : Fin 8) (s : State) : State :=
  s.modScreen n fun sc => { sc with link := { sc.link with sent := some (sc.forwardFrame index) } }

/-- The service code and word of a port's next return frame (R172). The word of an IDLE frame, which no rule gives for the return
direction, is 0 (DESIGN CHOICE, assumption log 29). -/
def Arbiter.nextWord (a : Arbiter) : ServiceCode × Word :=
  match a.channel with
  | some m => if m.sent < m.words.length then (wordCode m.sent m.words.length, m.words.getD m.sent 0) else (.idle, 0)
  | none => (.idle, 0)

/-- The channel after its next word has gone out (R172). -/
def Arbiter.advance (a : Arbiter) : Arbiter :=
  { a with channel := a.channel.map fun m => { m with sent := min m.words.length (m.sent + 1) } }

/-- The return frame a program port sends (R8, R190). -/
def Port.returnFrame (x : Port) (index : Nat) (code : ServiceCode) (word : Word) : LinkFrame 1 :=
  mkFrame (mkHeader normalSync index code 0) #v[statusSlot x] word

/-- A program port's return frame of a master frame: a grant where one is due, then one word of the message on the
channel, or IDLE. A port in DOWN sends nothing (R8, R170, R172). -/
def State.sendReturn (index : Nat) (p : Fin 12) (s : State) : State :=
  if s.ports[p].state = .down then s.modPort p fun x => { x with sent := none }
  else
    let s := s.grant p
    let w := s.arbiters[p].nextWord
    (s.modPort p fun x => { x with sent := some (x.returnFrame index w.1 w.2) }).modArb p Arbiter.advance

end Sys2Proof.Machine
end

