-- ==== Sys2Proof/Machine/RackPorts.lean ====
section
/-! DEFINITION. The screen ports' return direction (chapter 2): locking, the page exchange, the exchange timer, the rack
record and the presented channel states. -/

namespace Sys2Proof.Machine

/-- The entry to HUNT, whatever its cause (R32). The counts are the caller's. R32's list does not name the sync-miss run; that it
is 0 at an entry by misses or by the timer as well is the model's choice (DEDUCED, assumption log 20). -/
def ScreenPort.enterHunt (x : ScreenPort) : ScreenPort :=
  { x with link := .hunt, goodRun := 0, missRun := 0, expected := none, attempt := none, timer := 0, echo := false
           lastToggle := false, identSeen := false, rackId := none, channelCount := none, stored := allAbsent }

/-- The value the exchange timer is loaded with (R31, R34, R37). -/
def exchangeTime : Nat := 250

/-- The entry to EXCHANGE after four good frames (R31). -/
def ScreenPort.enterExchange (x : ScreenPort) : ScreenPort :=
  { x with link := .exchange, goodRun := 0, missRun := 0, echo := false, lastToggle := false, identSeen := false
           timer := exchangeTime, attempt := none }

/-- An acceptance: both toggles take the page's toggle (R34, R36, R37). -/
def ScreenPort.accept (toggle : Bool) (x : ScreenPort) : ScreenPort := { x with echo := toggle, lastToggle := toggle }

/-- A good page in EXCHANGE (R34). -/
def ScreenPort.pageInExchange (pg : Page) (x : ScreenPort) : ScreenPort :=
  if pg.toggle = x.lastToggle then x
  else match pg.content with
    | .ident rack count =>
      if 1 ≤ count ∧ count ≤ 16 then
        { x.accept pg.toggle with rackId := some rack, channelCount := some count, identSeen := true
                                  timer := exchangeTime }
      else x
    | .channels states =>
      if x.identSeen then
        if pg.last then { x.accept pg.toggle with stored := states, link := .up, missRun := 0, timer := 0 }
        else { x.accept pg.toggle with stored := states, timer := exchangeTime }
      else x

/-- A good page in UP (R36, R37). -/
def ScreenPort.pageInUp (pg : Page) (x : ScreenPort) : ScreenPort :=
  if pg.toggle = x.lastToggle then x
  else match pg.content with
    | .ident rack count =>
      if 1 ≤ count ∧ count ≤ 16 then
        { x.accept pg.toggle with rackId := some rack, channelCount := some count, stored := allAbsent
                                  identSeen := true, link := .exchange, timer := exchangeTime }
      else x
    | .channels states => { x.accept pg.toggle with stored := states }

/-- A good page handled in the port's link state; in HUNT no page is handled (R33, R35). -/
def ScreenPort.takePage (pg : Page) (x : ScreenPort) : ScreenPort :=
  match x.link with
  | .hunt => x
  | .exchange => x.pageInExchange pg
  | .up => x.pageInUp pg

/-- The status slot an arrival adds to a page attempt: known from a GOOD frame alone (R33). -/
def slotOf (cls : FrameClass) (slot : Slot) : Option Slot :=
  match cls with
  | .good => some slot
  | .checkError | .stop | .miss | .misplaced => none

/-- The page attempt at an arrival whose expected index was `e` (R33). -/
def ScreenPort.takeSlot (cls : FrameClass) (slot : Slot) (e : Nat) (x : ScreenPort) : ScreenPort :=
  match (if e = 0 then some [] else x.attempt) with
  | none => x
  | some slots =>
    if 3 < e then x
    else if cls = .misplaced then { x with attempt := none }
    else
      let slots := slots ++ [slotOf cls slot]
      if e = 3 then
        match (allKnown slots).bind parsePage with
        | some pg => { x with attempt := none }.takePage pg
        | none => { x with attempt := none }
      else { x with attempt := some slots }

/-- The sync-miss run after a frame in EXCHANGE or UP (R32). -/
def nextMissRun (run : Nat) (cls : FrameClass) : Nat :=
  match cls with
  | .miss | .misplaced => run + 1
  | .good | .checkError | .stop => 0

/-- A return frame taken in HUNT (R31). -/
def ScreenPort.takeHunting (cls : FrameClass) (next : Option Nat) (x : ScreenPort) : ScreenPort :=
  let run := nextGoodRun x.goodRun cls
  let x := { x with goodRun := run, expected := if run = 0 then none else next }
  if 4 ≤ run then x.enterExchange else x

/-- A return frame taken in EXCHANGE or UP (R32, R33). -/
def ScreenPort.takeLinked (cls : FrameClass) (slot : Slot) (next : Option Nat) (x : ScreenPort) : ScreenPort :=
  let e := x.expected
  let x := { x with missRun := nextMissRun x.missRun cls, expected := next }
  if 3 ≤ x.missRun then { x.enterHunt with linkDrops := bump x.linkDrops }
  else match e with
    | some e => x.takeSlot cls slot e
    | none => x

/-- A return frame's effect on its screen port (R30 to R37). -/
def ScreenPort.takeFrame (f : LinkFrame 1) (x : ScreenPort) : ScreenPort :=
  let cls := classifyReturn x.expected f
  let next := nextExpected x.expected cls (headerIndex f.header)
  match x.link with
  | .hunt => x.takeHunting cls next
  | .exchange | .up => x.takeLinked cls f.slots[0] next

/-- The exchange timer has run out: the port enters HUNT and one exchange timeout is counted (R35). -/
def ScreenPort.timeout (x : ScreenPort) : ScreenPort := { x.enterHunt with timeouts := bump x.timeouts }

/-- The exchange timer's share of a master block boundary (R35). -/
def ScreenPort.tickTimer (x : ScreenPort) : ScreenPort :=
  if x.link = .exchange then
    if x.timer ≤ 1 then x.timeout else { x with timer := x.timer - 1 }
  else x

/-- The presented channel state of output channel `k` (R39). -/
def ScreenPort.presentedState (x : ScreenPort) (k : Fin 16) : ChannelState :=
  if x.link ≠ .up then .absent
  else match x.channelCount with
    | none => .absent
    | some count => if k.val < count then x.stored[k] else .absent

/-- The presented channel states formed at a master block boundary (R39). -/
def ScreenPort.present (x : ScreenPort) : ScreenPort := { x with presented := Vector.ofFn x.presentedState }

/-- The LINK condition handed to the meter and alarm unit (R41). -/
def ScreenPort.linkCondition (x : ScreenPort) : Bool := x.link != .up

/-- A SCREEN-RESET of the port's screen: the entry to HUNT, counting no link drop; the presented states and the counts stay
(R43). -/
def ScreenPort.reset (x : ScreenPort) : ScreenPort := x.enterHunt

end Sys2Proof.Machine
end

