-- ==== Sys2Proof/Machine/Boundary.lean ====
section
/-! DEFINITION. The master block boundary, the resets, and the steps that the part's own clock takes up: what each
block does at a boundary (R5, R9, R18, R35, R39, R41, R52 to R55, R72 to R81, R95, R97, R108 to R121, R148, R157,
R168, R169), and the steps that follow a frame or an event (R99, R162, R172, R189). -/

namespace Sys2Proof.Machine

/-! ### Resets -/

/-- A PART-RESET takes effect: every block takes its power-on values and the block counter becomes 0; the straps are kept
(R189, R175). The frame index within the master block runs on, since the forward frames are sent through every reset
(R27, assumption log 4). -/
def State.partReset (s : State) : State :=
  { State.powerOn s.straps s.pending with frameIndex := s.frameIndex, freeCount := s.freeCount }

/-- The reset that is due takes effect (R188, R189). -/
def State.takeDueReset (s : State) : State :=
  match s.resetPending with
  | some r => if r.due then s.partReset else s
  | none => s

/-! ### Steps the part takes up by itself -/

/-- The end of a crossfade that has run its frame with j = 64 (R99). -/
def State.endCrossfade (n : Fin 8) (s : State) : State :=
  if s.screens[n].eng.crossfadeOver then s.modEng n Engine.endCrossfade else s

/-- Whatever is due and has not been taken by a command of its own: sent messages, a due reset, ended crossfades and
choices of notice. The part's clock takes these up before each master frame and each boundary (assumption log 2). -/
def State.settleDue (s : State) : State :=
  forScreens State.choose (forScreens State.endCrossfade (forPorts State.messageSent s).takeDueReset)

/-! ### Meters and alarms at a boundary -/

/-- What the other blocks hand the meter and alarm unit for a boundary (R53, R55, R41, R96, R111, R112, R148). -/
structure Handed where
  state : ScreenState
  speed : Nat
  fader : Nat
  mute : Bool
  folded : Vector Bool 16
  quiet : Bool
  expected : Vector Bool 16
  source : Bool
  amp : Bool
  link : Bool
  format : Bool
deriving DecidableEq, Repr

/-- A meter's update at a boundary (R108, R109). -/
def Meter.boundary (speed : Nat) (m : Meter) : Meter :=
  { running := 0, peak := m.running, level := m.level + asr (m.running - m.level) speed }

/-- The level compared with a threshold; an absent threshold holds nothing (R111, R114). -/
def atOrAbove (threshold : Option Int) (level : Int) : Bool :=
  match threshold with
  | some t => decide (t ≤ level)
  | none => false

/-- The level below a threshold (R111). -/
def below (threshold : Option Int) (level : Int) : Bool :=
  match threshold with
  | some t => decide (level < t)
  | none => false

/-- Whether the condition of a block class holds for the ending block; an event class has none (R111, R112). -/
def Monitor.condition (h : Handed) (m : Monitor) (id : Fin 54) : Bool :=
  match classOf id with
  | .over => atOrAbove (m.record id).threshold m.meters[channelOf id].level
  | .silent => h.expected[channelOf id] && below (m.record id).threshold m.meters[channelOf id].level
  | .source => h.source
  | .amp => h.amp
  | .link => h.link
  | .format => h.format
  | .clip | .slip | .cue => false

/-- An instance's occurrence at a boundary, if it has one, with the mark of an entry into RAISED (R111, R112, R116). -/
def Monitor.occurrenceAt (h : Handed) (m : Monitor) (id : Fin 54) : Alarm × Bool :=
  if m.condition h id then m.alarms[id].resumed.occurrence (m.record id) else (m.alarms[id].resumed, false)

/-- An instance after a boundary: CLEAR where it is not watched; otherwise the block's occurrence and then the boundary
step (R117, R119, R120). -/
def Monitor.alarmAfter (h : Handed) (m : Monitor) (id : Fin 54) : Alarm :=
  if m.watches id then (m.occurrenceAt h id).1.boundaryStep (m.record id) else alarmClear

/-- Whether an instance enters RAISED at a boundary (R118). -/
def Monitor.raisedAt (h : Handed) (m : Monitor) (id : Fin 54) : Bool := m.watches id && (m.occurrenceAt h id).2

/-- The pending entry of an id after a boundary (R118, R123). -/
def Monitor.pendingAfter (h : Handed) (m : Monitor) (id : Fin 54) : Option Bool :=
  match m.pending[id] with
  | some x => some x
  | none => if m.raisedAt h id then some false else none

/-- The unit's meters updated and its inputs taken over for a boundary (R108, R109, R119, R120). -/
def Monitor.takeHanded (h : Handed) (m : Monitor) : Monitor :=
  { m with meters := Vector.ofFn fun c => m.meters[c].boundary h.speed
           speed := h.speed, evaluated := h.state, handedFader := h.fader, handedMute := h.mute
           handedFolded := h.folded, handedQuiet := h.quiet }

/-- The meter and alarm unit's work for a screen at a boundary (R108 to R112, R116 to R121). The set of R119 that this boundary
forms, and the suppression inputs handed for it, hold for the ending block's occurrences as well. R119 forms the set for the block
that the boundary opens, and R120 settles the point for SILENT alone, so for the other classes, where the set widens, this is the
model's choice (DEDUCED, assumption log 31). -/
def Monitor.boundary (h : Handed) (m : Monitor) : Monitor :=
  let m := m.takeHanded h
  { m with alarms := Vector.ofFn (m.alarmAfter h), pending := Vector.ofFn (m.pendingAfter h) }

/-- The AMP condition: a mapped output channel is presented in a state other than OK (R112). -/
def Screen.ampCondition (x : Screen) : Bool :=
  (List.finRange 16).any fun k => x.dec.map[k].role.isSome && x.link.presented[k] != .ok

/-- What the meter and alarm unit is handed for a screen at a boundary. -/
def State.handed (s : State) (n : Fin 8) : Handed :=
  let x := s.screens[n]
  { state := x.ctx.state, speed := x.ctx.meterSpeed, fader := x.eng.fader, mute := x.eng.mute
    folded := Vector.ofFn fun k => x.dec.folds[k] != .normal
    quiet := x.quiet.isSome
    expected := Vector.ofFn fun k => x.dec.map[k].expected
    source := s.sourceCondition n, amp := x.ampCondition, link := x.link.linkCondition, format := x.ctx.formatCond }

/-- The meter and alarm unit's share of a boundary for a screen, with the summary handed on (R129). -/
def State.tickMonitor (n : Fin 8) (s : State) : State :=
  s.alarmEvent n (Monitor.boundary (s.handed n))

/-! ### The boundary -/

/-- The arbiters' share of a boundary, less what ARBITER_RELOAD has already taken (R169). -/
def State.tickArbiters (s : State) : State :=
  forPorts (fun p s => s.unlessTaken (.reload p) (State.tickArbiter p)) s

/-- A screen port's share of a boundary: the exchange timer, then the presented states (R35, R39). -/
def State.tickLink (n : Fin 8) (s : State) : State :=
  (s.unlessTaken (.exchange n) fun s => s.modLink n ScreenPort.tickTimer).modLink n ScreenPort.present

/-- The filter engine's share of a boundary: the fade step, then a pending switch's start (R95, R97). -/
def State.tickEngine (n : Fin 8) (s : State) : State := s.modEng n fun e => e.fadeStep.startSwitch s.screens[n].ctx.state

/-- The contact lines' share of a boundary (R157). -/
def State.tickLines (s : State) (counter : Long) : State :=
  { s with lines := Vector.ofFn fun l => s.lines[l].endPulse counter }

/-- A new master block opens: the block counter advances and the frame index begins again at 0. -/
def State.openBlock (s : State) : State := { s with blockCounter := s.nextCounter, frameIndex := 0 }

/-- The links' share of a boundary: program ports, response queues, arbiters and screen ports. -/
def State.tickLinks (s : State) : State :=
  forScreens State.tickLink
    (forPorts (State.expireResponses s.blockCounter) (forPorts (State.tickPort s.blockCounter) s)).tickArbiters

/-- The screens' share of a boundary: source and format, working format and folds, fader and banks (R52 to R55, R72 to
R81, R95, R97). -/
def State.tickScreens (s : State) : State :=
  forScreens State.tickEngine (forScreens State.settleDecoder (forScreens State.settleScreen s))

/-- The cue engine's and the contact lines' share of a boundary (R148, R157). -/
def State.tickTimers (s : State) : State :=
  (forScreens (State.endQuiet s.blockCounter) s).tickLines s.blockCounter

/-- The master block boundary, as one indivisible step (R109 and the rules above; its order within the boundary is
assumption log 5). -/
def State.boundary (s : State) : State :=
  { forScreens State.tickMonitor s.settleDue.openBlock.tickLinks.tickScreens.tickTimers with taken := [] }

/-- The master frame: the readers produce their slots together, every screen is played, and every port sends its frame
(R12, R27, R74, R88, R108, R8). -/
def State.masterFrame (s : State) : State :=
  let s := s.settleDue
  let inputs : Vector Inputs 8 := Vector.ofFn fun n => inputsOf (s.screenSlots n)
  let read := forPorts State.readPort s
  let played := forScreens (fun n t => t.playScreen n inputs[n]) read
  let forwarded := forScreens (State.sendForward s.frameIndex) played
  let sent := forPorts (State.sendReturn s.frameIndex) forwarded
  { sent with frameIndex := (s.frameIndex + 1) % 48 }

end Sys2Proof.Machine
end

