-- ==== Sys2Proof/Machine/Operands.lean ====
section
/-! DEFINITION. The coding of operands and reply items in service words (R193): numbering of named values, the reading of
a request's payload, and the words of reply items. -/

namespace Sys2Proof.Machine

/-! ### Named values, numbered from 0 in the order the owning rule names them (R193) -/

/-- The value that a choice word names in a list of values, if it names one. -/
def named {α : Type} (values : List α) (w : Word) : Option α := values[w.toNat]?

/-- The number of a value in its list. -/
def numberOf {α : Type} [DecidableEq α] (values : List α) (x : α) : Word := wordOf (values.idxOf x)

/-- The roles, in the order of the Speaker Roles table. -/
def allRoles : List Role :=
  [.l, .c, .r, .lfe, .ls, .rs, .lss, .rss, .lrs, .rrs, .bs, .ltop, .rtop, .hi, .vn, .aux]

/-- The screen states (R44). -/
def allScreenStates : List ScreenState := [.dark, .standby, .running]

/-- The source roles (R51). -/
def allSourceRoles : List SourceRole := [.primary, .alternate]

/-- The active sources (section 3.1). -/
def allActives : List ActiveSource := [.primary, .alternate, .none]

/-- The banks (R84). -/
def allBanks : List Bank := [.a, .b]

/-- The matrices (R68). -/
def allMatrices : List Matrix := [.a, .b]

/-- The alarm classes (section 6.2). -/
def allClasses : List AlarmClass := [.clip, .over, .silent, .source, .slip, .amp, .link, .cue, .format]

/-- The modes of a contact line (R156). -/
def allModes : List LineMode := [.cue, .alarm]

/-- The link states of a screen port (chapter 2). -/
def allLinkStates : List LinkState := [.hunt, .exchange, .up]

/-- The channel states of a rack (section 2.3). -/
def allChannelStates : List ChannelState := [.ok, .protect, .fault, .absent]

/-- The kinds of the capture record (R21). -/
def allErrorKinds : List ErrorKind := [.check, .sync, .descriptor, .service]

/-- The cue states (R135). -/
def allCueStates : List CueState := [.armed, .fired, .missed, .passed]

/-- The outcomes of a firing (R135). -/
def allOutcomes : List CueOutcome := [.applied, .declined]

/-! ### Reading a payload (R179, R193) -/

/-- A reader of payload words: what it reads, and the words left. -/
abbrev Read := StateT (List Word) Option

/-- The next word. -/
def readWord : Read Word := fun
  | [] => none
  | w :: ws => some (w, ws)

/-- A quantity that fits 16 bits. -/
def readNat : Read Nat := do return (← readWord).toNat

/-- A choice among named values; a word beyond the last codes nothing. -/
def readNamed {α : Type} (values : List α) : Read α := do
  let w ← readWord
  StateT.lift (named values w)

/-- An on-or-off value, or a flag whose owning rule names set first: on or set is 0, off or clear is 1 (assumption log 13). -/
def readFlag : Read Bool := readNamed [true, false]

/-- A flag whose owning rule names clear first: clear is 0, set is 1 (LOCK-FREE's force flag, R183, and CUE-LOAD's
fire-if-due flag, R150; assumption log 13). -/
def readClearFirst : Read Bool := readNamed [false, true]

/-- A 32-bit quantity, high word first. -/
def readLong : Read Long := do
  let high ← readWord
  let low ← readWord
  return high ++ low

/-- A 16-bit coefficient in two's complement. -/
def readCoef : Read Int := do return (← readWord).toInt

/-- A 32-bit two's complement value. -/
def readSample : Read Int := do return (← readLong).toInt

/-- A biquad coefficient; one outside the 24-bit range codes nothing. -/
def readBiquad : Read Int := do
  let x ← readSample
  if sampleMin ≤ x ∧ x ≤ sampleMax then return x else StateT.lift none

/-- A node number; one above 255 codes nothing. -/
def readNode : Read Byte := do
  let w ← readWord
  if w.toNat ≤ 255 then return w.extractLsb' 0 8 else StateT.lift none

/-- An optional item, or the first of two forms. -/
def readOpt {α : Type} (r : Read α) : Read (Option α) := do
  if ← readFlag then return some (← r) else return none

/-- A known number of items. -/
def readTimes {α : Type} : Nat → Read α → Read (List α)
  | 0, _ => return []
  | n + 1, r => do
    let a ← r
    return a :: (← readTimes n r)

/-- As many items as the payload still holds; `fuel` bounds the number of payload words. -/
def readRest {α : Type} (r : Read α) : Nat → Read (List α)
  | 0 => return []
  | fuel + 1 => do
    if (← get).isEmpty then return []
    else
      let a ← r
      return a :: (← readRest r fuel)

/-- The most words a payload holds (R193). -/
def payloadMax : Nat := 60

/-- A payload read whole: too few words, words beyond, or a word that codes nothing leave no value (R179). -/
def readAll {α : Type} (r : Read α) (payload : List Word) : Option α :=
  match r payload with
  | some (a, []) => some a
  | _ => none

/-! ### Operands of several words -/

/-- A drive, with its duration for a pulse (R143, R160). -/
def readDrive : Read Drive := do
  match ← readNamed [0, 1, 2] with
  | 0 => return .closeLine
  | 1 => return .openLine
  | _ => return .pulse (← readNat)

/-- A cue action with its operands (R149). -/
def readAction : Read CueAction := do
  match ← readNamed [0, 1, 2, 3, 4, 5, 6, 7] with
  | 0 => return .contact (← readNat) (← readDrive)
  | 1 => return .fade (← readNat) (← readNat)
  | 2 => return .mute (← readFlag)
  | 3 => return .eqBank (← readNamed allBanks)
  | 4 => return .format (← readOpt readNat)
  | 5 => return .source (← readNamed allSourceRoles)
  | 6 => return .quiet (← readLong).toNat
  | _ => return .mark (← readNat)

/-- CUE-LOAD's cue (R149). -/
def readCue : Read CueOperand := do
  return { id := ← readNat, program := ← readLong, trigger := ← readLong, action := ← readAction, catchUp := ← readFlag
           fireIfDue := ← readClearFirst }

/-- A list of cue ids, or the word all (R151, R153). -/
def readSelection : Read CueSelection := do
  if ← readFlag then return .ids (← readRest readNat payloadMax) else return .all

/-- A speaker map item's fields (R60). -/
def readEntry : Read MapOperand := do
  return { role := ← readOpt (readNamed allRoles), expected := ← readFlag, partner := ← readOpt readNat, gain := ← readNat }

/-- A SCREEN-SET item: the word naming it, then its value (R193). -/
def readItem : Read ScreenItem := do
  match ← readNamed [0, 1, 2, 3, 4, 5, 6, 7, 8] with
  | 0 => return .primary (← readOpt readNat)
  | 1 => return .alternate (← readOpt readNat)
  | 2 => return .follow (← readFlag)
  | 3 => return .fallback (← readNat)
  | 4 => return .override (← readOpt readNat)
  | 5 => return .mapEntry (← readNat) (← readEntry)
  | 6 => return .foldEnable (← readFlag)
  | 7 => return .meterSpeed (← readNat)
  | _ => return .window (← readNat)

/-- FORMAT-LOAD BEGIN's operands (R67, section 9.6). -/
def readHeader : Read FormatHeader := do
  let tag ← readNat
  let inputs ← readNat
  let steered ← readFlag
  let rows ← readNat
  let roles ← readTimes (min rows payloadMax) (readNamed allRoles)
  if steered then
    let s : SteeringOperand := { first := ← readNat, second := ← readNat, shift := ← readNat, slew := ← readNat }
    return { tag, inputs, steering := some s, roles }
  else return { tag, inputs, steering := none, roles }

/-- A section's five coefficients (R103). -/
def readCoefs : Read Coefs := do
  return { b0 := ← readBiquad, b1 := ← readBiquad, b2 := ← readBiquad, a1 := ← readBiquad, a2 := ← readBiquad }

/-- ALARM-SET's record (R115, section 9.6). -/
def readRecord : Read AlarmOperand := do
  return { enable := ← readFlag, level := ← readNat, threshold := ← readSample, count := ← readNat
           window := ← readNat, release := ← readNat, quiet := ← readFlag }

/-- A notice route's port, node and optional share (R166). -/
def readRoute : Read RouteOperand := do
  return { port := ← readNat, node := ← readNode
           share := ← readOpt (do return (← readNat, ← readNat)) }

/-! ### Words of reply items (R193) -/

/-- A sample value or a biquad coefficient: two words of a 32-bit two's complement value. -/
def sampleWords (x : Int) : List Word := longWords (BitVec.ofInt 32 x)

/-- A coefficient of a matrix: one word in two's complement. -/
def coefWord (x : Int) : Word := BitVec.ofInt 16 x

/-- A node number in one word. -/
def nodeWord (b : Byte) : Word := BitVec.setWidth 16 b

/-- An optional quantity that fits 16 bits. -/
def optNat : Option Nat → List Word := optWords fun n => [wordOf n]

/-- A list whose length the reply does not otherwise give: its number of entries, then the entries (assumption log 10). -/
def listWords {α : Type} (f : α → List Word) (l : List α) : List Word := wordOf l.length :: l.flatMap f

/-- A drive's words (R193). -/
def driveWords : Drive → List Word
  | .closeLine => [0]
  | .openLine => [1]
  | .pulse ms => [2, wordOf ms]

/-- A cue action's words, kind first (R193). -/
def actionWords : CueAction → List Word
  | .contact line d => 0 :: wordOf line :: driveWords d
  | .fade t d => [1, wordOf t, wordOf d]
  | .mute on => [2, flagWord on]
  | .eqBank x => [3, numberOf allBanks x]
  | .format tag => 4 :: optNat tag
  | .source role => [5, numberOf allSourceRoles role]
  | .quiet d => 6 :: longWords (BitVec.ofNat 32 d)
  | .mark level => [7, wordOf level]

/-- A requester's number: RESP 0, then the screens in the cyclic order (R169, assumption log 10). -/
def requesterWord (q : Requester) : Word := wordOf (requesterIndex q)

end Sys2Proof.Machine
end

