-- ==== Sys2Proof/Machine/Service.lean ====
section
/-! DEFINITION. The service unit (chapter 9): the catalogue of requests, the taking of a request, the lock check, the response
and its placing, the parts of a reply, and the requests on the part and its locks. -/

namespace Sys2Proof.Machine

/-! ### The catalogue (section 9.6) -/

/-- The request kinds, in catalogue order; NOTICE-ROUTE stands twice, once for each of its forms. -/
inductive ReqKind where
  | partStatus | partReset | lockTake | lockFree
  | portRead | portSet | portClear | portRestart
  | screenRead | screenSet | screenState | screenSource | screenReset
  | formatLoadBegin | formatLoadRows | formatLoadCommit | formatLoadClear | formatRead
  | eqLoadHead | eqLoadSections | eqRead | eqSelect | fade | mute
  | meterRead | alarmSet | alarmRead | alarmAck | alarmTest
  | cueLoad | cueDelete | cueRead | cueFire | cueRearm | contactSet | contactDrive
  | noticeDone | noticeRead | noticeRouteScreen | noticeRoutePort
deriving DecidableEq, Repr

/-- The classes of requests (R178). -/
inductive ReqClass where
  | read | screen | part | reset | lock
deriving DecidableEq, Repr

/-- The kinds in catalogue order, without the second NOTICE-ROUTE. -/
def catalogue : List ReqKind :=
  [.partStatus, .partReset, .lockTake, .lockFree, .portRead, .portSet, .portClear, .portRestart,
   .screenRead, .screenSet, .screenState, .screenSource, .screenReset,
   .formatLoadBegin, .formatLoadRows, .formatLoadCommit, .formatLoadClear, .formatRead,
   .eqLoadHead, .eqLoadSections, .eqRead, .eqSelect, .fade, .mute,
   .meterRead, .alarmSet, .alarmRead, .alarmAck, .alarmTest,
   .cueLoad, .cueDelete, .cueRead, .cueFire, .cueRearm, .contactSet, .contactDrive,
   .noticeDone, .noticeRead, .noticeRouteScreen]

/-- A request's kind number: from 1 in catalogue order; NOTICE-ROUTE is 39 in both forms (R193). -/
def ReqKind.number (k : ReqKind) : BitVec 11 :=
  match k with
  | .noticeRoutePort => 39
  | k => BitVec.ofNat 11 (catalogue.idxOf k + 1)

/-- The class of a request (section 9.6). -/
def ReqKind.cls : ReqKind → ReqClass
  | .partStatus | .portRead | .screenRead | .formatRead | .eqRead | .meterRead | .alarmRead | .cueRead | .noticeRead =>
    .read
  | .partReset => .reset
  | .lockTake | .lockFree => .lock
  | .portSet | .portClear | .portRestart | .formatLoadBegin | .formatLoadRows | .formatLoadCommit | .formatLoadClear
  | .contactSet | .noticeRouteScreen | .noticeRoutePort => .part
  | .screenSet | .screenState | .screenSource | .screenReset | .eqLoadHead | .eqLoadSections | .eqSelect | .fade | .mute
  | .alarmSet | .alarmAck | .alarmTest | .cueLoad | .cueDelete | .cueFire | .cueRearm | .contactDrive | .noticeDone =>
    .screen

/-- Whether a request accepts a screen number of 0 to 7 (section 9.6). -/
def ReqKind.takesScreen : ReqKind → Bool
  | .partStatus | .partReset | .portRead | .portSet | .portClear | .portRestart | .formatLoadBegin | .formatLoadRows
  | .formatLoadCommit | .formatLoadClear | .contactSet | .noticeRoutePort => false
  | .lockTake | .lockFree | .formatRead | .eqRead | .cueRead | .noticeRead | .noticeRouteScreen
  | .screenRead | .screenSet | .screenState | .screenSource | .screenReset | .eqLoadHead | .eqLoadSections | .eqSelect
  | .fade | .mute | .meterRead | .alarmSet | .alarmRead | .alarmAck | .alarmTest | .cueLoad | .cueDelete | .cueFire
  | .cueRearm | .contactDrive | .noticeDone => true

/-- Whether a request accepts screen number 15 (section 9.6). -/
def ReqKind.takesPart : ReqKind → Bool
  | .partStatus | .partReset | .portRead | .portSet | .portClear | .portRestart | .formatLoadBegin | .formatLoadRows
  | .formatLoadCommit | .formatLoadClear | .contactSet | .noticeRoutePort
  | .lockTake | .lockFree | .formatRead | .eqRead | .cueRead | .noticeRead => true
  | .noticeRouteScreen
  | .screenRead | .screenSet | .screenState | .screenSource | .screenReset | .eqLoadHead | .eqLoadSections | .eqSelect
  | .fade | .mute | .meterRead | .alarmSet | .alarmRead | .alarmAck | .alarmTest | .cueLoad | .cueDelete | .cueFire
  | .cueRearm | .contactDrive | .noticeDone => false

/-! ### Answers -/

/-- The refusals of a request (R180). -/
inductive RefusalCode where
  | locked | range | full | state | budget | unknown
deriving DecidableEq, Repr

/-- The word of a refusal (R193). -/
def RefusalCode.word : RefusalCode → Word
  | .locked => 1
  | .range => 2
  | .full => 3
  | .state => 4
  | .budget => 5
  | .unknown => 6

/-- The word of DONE (R193). -/
def doneWord : Word := 0

/-- What an owning block answers: a refusal, which changes nothing, or the state it leaves and its reply items (R179). -/
inductive Answer where
  | refuse (code : RefusalCode)
  | done (s : State) (items : List Word)
deriving DecidableEq, Repr

/-! ### Locks -/

/-- The holder of the lock that a screen number names: a screen's, or the part lock for 15; 0 where free (section 9.4). -/
def State.lockHolder (s : State) (screen : BitVec 4) : Byte :=
  match index? 8 screen.toNat with
  | some n => s.screenLocks[n]
  | none => s.partLock

/-- Set the holder of the lock that a screen number names. -/
def State.setLock (s : State) (screen : BitVec 4) (holder : Byte) : State :=
  match index? 8 screen.toNat with
  | some n => { s with screenLocks := s.screenLocks.set n.val holder }
  | none => { s with partLock := holder }

/-- A lock is held by a node other than the source node (R178). -/
def heldAgainst (holder source : Byte) : Bool := holder != 0 && holder != source

/-- The lock check of a request of a class (R178). -/
def State.lockedOut (s : State) (h : ReqHead) : ReqClass → Bool
  | .screen => heldAgainst (s.lockHolder h.screen) h.source
  | .part | .reset => heldAgainst s.partLock h.source
  | .read | .lock => false

/-! ### Taking a request -/

/-- Whether the service unit can answer a message of a port (R176). -/
def State.canTake (s : State) (p : Fin 12) : Bool :=
  s.resetPending.isNone && decide (s.arbiters[p].queue.length < 4)

/-- A message discarded without being taken: the arbiter of its port counts it (R176, R168). -/
def State.discardRequest (s : State) (p : Fin 12) : State :=
  s.modArb p fun a => { a with requestsDiscarded := bump a.requestsDiscarded }

/-- The response to a request (R180). -/
def State.responseWords (s : State) (h : ReqHead) (kind : BitVec 11) (payload : List Word) : List Word :=
  mkMessage h.source s.node (kindWord true kind h.screen) h.tag payload

/-- The response placed at the tail of its port's response queue (R180). -/
def State.place (s : State) (h : ReqHead) (kind : BitVec 11) (payload : List Word) (forReset : Bool) : State :=
  s.modArb h.port fun a =>
    { a with queue := a.queue ++ [{ words := s.responseWords h kind payload, placedAt := s.blockCounter, forReset }] }

/-- The checks before the owning block: screen number, form and lock (R177, R178). -/
def State.refusedBefore (s : State) (h : ReqHead) (k : ReqKind) : Option RefusalCode :=
  if 8 ≤ h.screen.toNat ∧ h.screen.toNat ≤ 14 then some .unknown
  else if h.screen = 15 ∧ k.takesPart = false then some .range
  else if h.screen ≠ 15 ∧ k.takesScreen = false then some .range
  else if s.lockedOut h k.cls then some .locked
  else none

/-- The payload of a refusal: the code alone, with the holder node after it for LOCK-TAKE and LOCK-FREE (R180, R182). -/
def State.refusalPayload (s : State) (h : ReqHead) (k : ReqKind) (code : RefusalCode) : List Word :=
  if k.cls = .lock ∧ code ≠ .unknown then [code.word, nodeWord (s.lockHolder h.screen)] else [code.word]

/-- A request taken whole: discarded, refused, or carried out by its owning block and answered (R176 to R180). -/
def State.request (s : State) (h : ReqHead) (k : ReqKind) (body : State → Answer) : State :=
  if s.canTake h.port then
    match s.refusedBefore h k with
    | some code => s.place h k.number (s.refusalPayload h k code) false
    | none => match body s with
      | .refuse code => s.place h k.number (s.refusalPayload h k code) false
      | .done t items => t.place h k.number (doneWord :: items) (k == .partReset)
  else s.discardRequest h.port

/-- A request whose kind or screen number names nothing is refused with REFUSED-UNKNOWN, both echoed (R177, R180). -/
def State.requestUnknown (s : State) (h : ReqHead) (kind : BitVec 11) : State :=
  if s.canTake h.port then s.place h kind [RefusalCode.unknown.word] false
  else s.discardRequest h.port

/-- Hand a screen request to its screen (R177 has checked the number). -/
def onScreen (h : ReqHead) (f : Fin 8 → Answer) : Answer :=
  match index? 8 h.screen.toNat with
  | some n => f n
  | none => .refuse .range

/-! ### Parts of a reply (R181) -/

/-- The words of reply items that one part holds (R181). -/
def partSize : Nat := 57

/-- The number of parts of a reply (R181). -/
def partCount (items : List Word) : Nat := max 1 (ceilDiv items.length partSize)

/-- The answer of a reading request: the word of the part index and the number of parts, then that part's words (R181). -/
def readAnswer (s : State) (items : List Word) (part : Nat) : Answer :=
  if part < partCount items then
    .done s ((BitVec.ofNat 8 part ++ BitVec.ofNat 8 (partCount items - 1)) :: (items.drop (part * partSize)).take partSize)
  else .refuse .range

/-- The block counter among reply items. -/
def State.counterWords (s : State) : List Word := longWords s.blockCounter

/-! ### Requests on the part and its locks -/

/-- The part code (R187). -/
def partCode : Word := 0x0812

/-- The reply items of PART-STATUS (R187). -/
def State.statusItems (s : State) : List Word :=
  [partCode, Config.revision, nodeWord s.node, wordOf s.straps.toNat] ++ s.counterWords ++
  ((List.finRange 12).map fun p => wordOf (portStateCode s.ports[p].state)) ++
  ((List.finRange 8).flatMap fun n =>
    [numberOf allScreenStates s.screens[n].ctx.state, numberOf allLinkStates s.screens[n].link.link]) ++
  ((List.finRange 8).map fun n => nodeWord s.screenLocks[n]) ++ [nodeWord s.partLock]

/-- PART-STATUS (R187). -/
def answerPartStatus (part : Nat) (s : State) : Answer := readAnswer s s.statusItems part

/-- PART-RESET: reset pending is set with the port of the request (R188). -/
def answerPartReset (h : ReqHead) (s : State) : Answer :=
  .done { s with resetPending := some { port := h.port, due := false } } []

/-- LOCK-TAKE (R182). -/
def answerLockTake (h : ReqHead) (s : State) : Answer :=
  if h.source = 0 then .refuse .range
  else if heldAgainst (s.lockHolder h.screen) h.source then .refuse .locked
  else .done (s.setLock h.screen h.source) [nodeWord h.source]

/-- Whether the screens a lock concerns are all DARK (R184). -/
def State.darkFor (s : State) (screen : BitVec 4) : Bool :=
  match index? 8 screen.toNat with
  | some n => s.screens[n].ctx.state == .dark
  | none => (List.finRange 8).all fun n => s.screens[n].ctx.state == .dark

/-- LOCK-FREE, plain or forced (R183, R184). -/
def answerLockFree (h : ReqHead) (force : Bool) (s : State) : Answer :=
  let holder := s.lockHolder h.screen
  if heldAgainst holder h.source then
    if force then
      if s.darkFor h.screen then .done (s.setLock h.screen 0) [nodeWord holder] else .refuse .state
    else .refuse .locked
  else .done (s.setLock h.screen 0) [nodeWord holder]

/-- The command PART_STATUS (R187). -/
def execPartStatus (h : ReqHead) (part : Nat) (s : State) : Host.Outcome State Fault Refusal :=
  live s fun s => s.request h .partStatus (answerPartStatus part)

/-- The command PART_RESET (R188). -/
def execPartReset (h : ReqHead) (s : State) : Host.Outcome State Fault Refusal :=
  live s fun s => s.request h .partReset (answerPartReset h)

/-- The command LOCK_TAKE (R182). -/
def execLockTake (h : ReqHead) (s : State) : Host.Outcome State Fault Refusal :=
  live s fun s => s.request h .lockTake (answerLockTake h)

/-- The command LOCK_FREE (R183, R184). -/
def execLockFree (h : ReqHead) (force : Bool) (s : State) : Host.Outcome State Fault Refusal :=
  live s fun s => s.request h .lockFree (answerLockFree h force)

/-- The command UNKNOWN_REQUEST (R177). The response mark is not echoed: the response carries its own. -/
def execUnknownRequest (h : ReqHead) (kind : BitVec 11) (_response : Bool) (s : State) :
    Host.Outcome State Fault Refusal :=
  live s fun s => s.requestUnknown h kind

end Sys2Proof.Machine
end

