-- ==== Sys2Proof/Machine/PortRequests.lean ====
section
/-! DEFINITION. The requests on program ports: PORT-READ, PORT-SET, PORT-CLEAR and PORT-RESTART (section 1.8). -/

namespace Sys2Proof.Machine

/-- Hand a port request to its port; a port number of 12 or above is refused (section 1.8). -/
def onPort (port : Nat) (f : Fin 12 → Answer) : Answer :=
  match index? 12 port with
  | some p => f p
  | none => .refuse .range

/-- The words of a capture record's items (R21, R23); the record is one optional item (DESIGN CHOICE, assumption log 10). -/
def captureWords (x : Capture) : List Word :=
  numberOf allErrorKinds x.kind :: optNat x.index ++ longWords x.counter ++ optWords longWords x.lastGood ++
    [flagWord x.more]

/-- The words of the five settings (R22, R23). -/
def settingsWords (x : PortSettings) : List Word :=
  [flagWord x.enable, wordOf x.holdover, wordOf x.dropCount, wordOf x.dropWindow, flagWord x.dropEnable]

/-- The words of the seven counters, in the order of R20. -/
def countersWords (x : PortCounters) : List Word :=
  [wordOf x.checkErrors, wordOf x.slips, wordOf x.recoveries, wordOf x.fastDrops, wordOf x.relocks,
   wordOf x.stopEntries, wordOf x.discarded]

/-- The reply items of PORT-READ (R23). -/
def State.portItems (s : State) (p : Fin 12) : List Word :=
  let x := s.ports[p]
  wordOf (portStateCode x.state) :: settingsWords x.settings ++ [wordOf x.buffer.length, clearFirstWord x.started] ++
    countersWords x.counters ++ optWords captureWords x.capture ++ optWords longWords x.lastGood ++
    optWords (fun n => [nodeWord n]) x.lastTimedOut ++ s.counterWords

/-- PORT-READ (R23). -/
def answerPortRead (port part : Nat) (s : State) : Answer :=
  onPort port fun p => readAnswer s (s.portItems p) part

/-- Whether new settings change the drop count, the drop window or the drop enable (R10). -/
def PortSettings.dropDiffers (x y : PortSettings) : Bool :=
  x.dropCount != y.dropCount || x.dropWindow != y.dropWindow || x.dropEnable != y.dropEnable

/-- New settings replace the old ones; a change of the drop settings closes an open fast-drop window (R22, R10). -/
def Port.takeSettings (x : PortSettings) (y : Port) : Port :=
  { y with settings := x, window := if y.settings.dropDiffers x then none else y.window }

/-- The settings that PORT-SET stores: a holdover time above 250 is clamped (R22). -/
def portSettings (enable : Bool) (holdover dropCount dropWindow : Nat) (dropEnable : Bool) : PortSettings :=
  { enable, holdover := min holdover 250, dropCount, dropWindow, dropEnable }

/-- What PORT-SET's enable does to the port state: off takes it to DOWN, on takes a DOWN port to HUNT (R22, R7). -/
def State.takeEnable (s : State) (p : Fin 12) (enable : Bool) : State :=
  if enable then (if s.ports[p].state = .down then s.huntPort p else s) else s.disablePort p

/-- PORT-SET (R22). -/
def answerPortSet (port : Nat) (enable : Bool) (holdover dropCount dropWindow : Nat) (dropEnable : Bool) (s : State) :
    Answer :=
  onPort port fun p =>
    if 1 ≤ dropCount ∧ dropCount ≤ 255 ∧ 1 ≤ dropWindow ∧ dropWindow ≤ 255 then
      .done ((s.modPort p (Port.takeSettings (portSettings enable holdover dropCount dropWindow dropEnable))).takeEnable p
        enable) []
    else .refuse .range

/-- PORT-CLEAR at the port: the counters at 0, the capture record empty, the last timed-out source absent (R24). -/
def Port.clearCounts (x : Port) : Port := { x with counters := zeroCounters, capture := none, lastTimedOut := none }

/-- PORT-CLEAR at the port's arbiter: its three counters at 0 (R173). -/
def Arbiter.clearCounts (a : Arbiter) : Arbiter :=
  { a with requestsDiscarded := 0, responsesExpired := 0, messagesAbandoned := 0 }

/-- PORT-CLEAR (R24, R173). -/
def answerPortClear (port : Nat) (s : State) : Answer :=
  onPort port fun p => .done ((s.modPort p Port.clearCounts).modArb p Arbiter.clearCounts) []

/-- PORT-RESTART (R25). -/
def answerPortRestart (port : Nat) (s : State) : Answer :=
  onPort port fun p => if s.ports[p].state = .down then .refuse .state else .done (s.huntPort p) []

/-- The command PORT_READ (R23). -/
def execPortRead (h : ReqHead) (port part : Nat) (s : State) : Host.Outcome State Fault Refusal :=
  live s fun s => s.request h .portRead (answerPortRead port part)

/-- The command PORT_SET (R22). -/
def execPortSet (h : ReqHead) (port : Nat) (enable : Bool) (holdover dropCount dropWindow : Nat) (dropEnable : Bool)
    (s : State) : Host.Outcome State Fault Refusal :=
  live s fun s => s.request h .portSet (answerPortSet port enable holdover dropCount dropWindow dropEnable)

/-- The command PORT_CLEAR (R24). -/
def execPortClear (h : ReqHead) (port : Nat) (s : State) : Host.Outcome State Fault Refusal :=
  live s fun s => s.request h .portClear (answerPortClear port)

/-- The command PORT_RESTART (R25). -/
def execPortRestart (h : ReqHead) (port : Nat) (s : State) : Host.Outcome State Fault Refusal :=
  live s fun s => s.request h .portRestart (answerPortRestart port)

end Sys2Proof.Machine
end

