-- ==== Sys2Proof/Machine/ScreenRequests.lean ====
section
/-! DEFINITION. The requests on screens: SCREEN-READ, SCREEN-SET, SCREEN-STATE, SCREEN-SOURCE and SCREEN-RESET (sections
2.5, 3.2, 3.4 and 3.7). -/

namespace Sys2Proof.Machine

/-! ### SCREEN-READ -/

/-- A source port or absent, in words. -/
def portWords (p : Option (Fin 12)) : List Word := optNat (p.map (·.val))

/-- The words of a speaker map entry (R60). -/
def entryWords (e : MapEntry) : List Word :=
  optWords (fun x => [numberOf allRoles x]) e.role ++ [flagWord e.expected] ++ optNat (e.partner.map (·.val)) ++
    [wordOf e.gain]

/-- The words of a notice route (R166). -/
def routeWords (x : Route) : List Word := [wordOf x.port.val, nodeWord x.node, wordOf x.count, wordOf x.weight]

/-- The configuration items of a screen, in the order of R60, and its notice route (R61). -/
def Context.configWords (c : Context) : List Word :=
  portWords c.primary ++ portWords c.alternate ++ [flagWord c.follow, wordOf c.fallback] ++ optNat c.override ++
    c.map.toList.flatMap entryWords ++ [flagWord c.foldEnable, wordOf c.meterSpeed, wordOf c.window] ++
    optWords routeWords c.route

/-- What a screen context has learned and chosen, in the order of R61. -/
def Context.standingWords (c : Context) : List Word :=
  [numberOf allActives c.active] ++ optWords (fun x => [numberOf allSourceRoles x]) c.requested ++
    [flagWord c.failoverDue, wordOf c.failovers] ++ optNat c.descTag ++ [wordOf c.resolved, flagWord c.formatCond] ++
    optWords longWords c.lastProgram ++ optWords longWords c.lastPosition ++ [flagWord c.positionLost]

/-- The words of a toggle bit. -/
def toggleWord (b : Bool) : Word := if b then 1 else 0

/-- The screen port items of R42. -/
def ScreenPort.items (x : ScreenPort) : List Word :=
  [numberOf allLinkStates x.link, toggleWord x.echo, toggleWord x.lastToggle] ++ optWords (fun w => [w]) x.rackId ++
    optNat x.channelCount ++ x.stored.toList.map (numberOf allChannelStates) ++
    x.presented.toList.map (numberOf allChannelStates) ++ [wordOf x.linkDrops, wordOf x.timeouts]

/-- The reply items of SCREEN-READ (R61). -/
def State.screenItems (s : State) (n : Fin 8) : List Word :=
  let c := s.screens[n].ctx
  numberOf allScreenStates c.state :: c.configWords ++ c.standingWords ++ s.screens[n].link.items ++ s.counterWords

/-- SCREEN-READ (R61). -/
def answerScreenRead (h : ReqHead) (part : Nat) (s : State) : Answer :=
  onScreen h fun n => readAnswer s (s.screenItems n) part

/-! ### SCREEN-SET -/

/-- What an item sets, so that an item carried twice is found: its number in the table of R60, with its output channel for
a speaker map item. -/
def itemKey : ScreenItem → Nat × Nat
  | .primary _ => (0, 0)
  | .alternate _ => (1, 0)
  | .follow _ => (2, 0)
  | .fallback _ => (3, 0)
  | .override _ => (4, 0)
  | .mapEntry channel _ => (5, channel)
  | .foldEnable _ => (6, 0)
  | .meterSpeed _ => (7, 0)
  | .window _ => (8, 0)

/-- Whether no number stands above a limit in an optional operand. -/
def optBelow (limit : Nat) : Option Nat → Bool
  | some k => decide (k < limit)
  | none => true

/-- The check of one item (R60). -/
def State.itemOk (s : State) : ScreenItem → Bool
  | .primary p | .alternate p => optBelow 12 p
  | .fallback tag => decide (1 ≤ tag ∧ tag ≤ 6)
  | .override (some tag) => s.validTag tag
  | .mapEntry channel e => decide (channel < 16) && optBelow 16 e.partner && decide (e.partner ≠ some channel)
  | .override none | .follow _ | .foldEnable _ | .meterSpeed _ | .window _ => true

/-- Write one item, with its clamp (R60). -/
def Context.writeItem (c : Context) : ScreenItem → Context
  | .primary p => { c with primary := p.bind (index? 12) }
  | .alternate p => { c with alternate := p.bind (index? 12) }
  | .follow on => { c with follow := on }
  | .fallback tag => { c with fallback := tag }
  | .override tag => { c with override := tag }
  | .mapEntry channel e => match index? 16 channel with
    | some k =>
      { c with map := c.map.set k.val
                { role := e.role, expected := e.expected, partner := e.partner.bind (index? 16), gain := e.gain } }
    | none => c
  | .foldEnable on => { c with foldEnable := on }
  | .meterSpeed speed => { c with meterSpeed := max 1 (min speed 8) }
  | .window ms => { c with window := min ms 10000 }

/-- Write every item carried (R60). -/
def Context.writeItems (c : Context) (items : List ScreenItem) : Context := items.foldl Context.writeItem c

/-- The primary and alternate ports differ, where both are configured (R60). -/
def Context.portsDiffer (c : Context) : Bool := c.primary.isNone || c.primary != c.alternate

/-- SCREEN-SET (R60). -/
def answerScreenSet (h : ReqHead) (items : List ScreenItem) (s : State) : Answer :=
  onScreen h fun n =>
    if (items.map itemKey).Nodup ∧ items.all s.itemOk = true ∧
        (s.screens[n].ctx.writeItems items).portsDiffer = true then
      .done (s.modCtx n fun c => c.writeItems items) []
    else .refuse .range

/-! ### SCREEN-STATE and SCREEN-SOURCE -/

/-- SCREEN-STATE (R44). -/
def answerScreenState (h : ReqHead) (target : ScreenState) (s : State) : Answer :=
  onScreen h fun n => .done (s.changeState n target) []

/-- SCREEN-SOURCE (R51). -/
def answerScreenSource (h : ReqHead) (role : SourceRole) (s : State) : Answer :=
  onScreen h fun n =>
    let c := s.screens[n].ctx
    if c.state = .dark ∨ (c.portOf role).isNone then .refuse .state
    else .done (s.modCtx n (Context.takeRequest role)) []

/-! ### SCREEN-RESET -/

/-- The meter and alarm unit at a SCREEN-RESET (R132). -/
def Monitor.reset (m : Monitor) : Monitor :=
  { m with meters := Vector.replicate 16 meterZero, alarms := Vector.replicate 54 alarmClear
           pending := Vector.replicate 54 none, marks := [], evaluated := .dark }

/-- A waiting unsent notice is discarded; one being sent finishes its sending (R174). -/
def keepSending (u : Option Unsent) : Option Unsent := u.filter (·.sending)

/-- The notice unit at a SCREEN-RESET (R174). -/
def NoticeUnit.reset (u : NoticeUnit) : NoticeUnit := { u with ceiling := 4, stack := [], unsent := keepSending u.unsent }

/-- SCREEN-RESET: every block serving the screen takes its part (R62, R43, R83, R107, R132, R155, R174). -/
def State.resetScreen (s : State) (n : Fin 8) : State :=
  let s := s.enterDark n
  let s := s.modCtx n fun c => { c with lastProgram := none, lastPosition := none }
  let s := s.modLink n ScreenPort.reset
  let s := s.modCues n (List.map Cue.rearm)
  let s := s.setQuiet n none
  let s := s.modNotice n NoticeUnit.reset
  s.alarmEvent n Monitor.reset

/-- SCREEN-RESET (R62). -/
def answerScreenReset (h : ReqHead) (s : State) : Answer := onScreen h fun n => .done (s.resetScreen n) []

/-! ### The commands -/

/-- The command SCREEN_READ (R61). -/
def execScreenRead (h : ReqHead) (part : Nat) (s : State) : Host.Outcome State Fault Refusal :=
  live s fun s => s.request h .screenRead (answerScreenRead h part)

/-- The command SCREEN_SET (R60). -/
def execScreenSet (h : ReqHead) (items : List ScreenItem) (s : State) : Host.Outcome State Fault Refusal :=
  live s fun s => s.request h .screenSet (answerScreenSet h items)

/-- The command SCREEN_STATE (R44). -/
def execScreenState (h : ReqHead) (target : ScreenState) (s : State) : Host.Outcome State Fault Refusal :=
  live s fun s => s.request h .screenState (answerScreenState h target)

/-- The command SCREEN_SOURCE (R51). -/
def execScreenSource (h : ReqHead) (role : SourceRole) (s : State) : Host.Outcome State Fault Refusal :=
  live s fun s => s.request h .screenSource (answerScreenSource h role)

/-- The command SCREEN_RESET (R62). -/
def execScreenReset (h : ReqHead) (s : State) : Host.Outcome State Fault Refusal :=
  live s fun s => s.request h .screenReset (answerScreenReset h)

end Sys2Proof.Machine
end

