-- ==== Sys2Proof/Machine/FormatRequests.lean ====
section
/-! DEFINITION. The requests on formats: FORMAT-LOAD in its four parts and FORMAT-READ (sections 4.2 and 4.8). -/

namespace Sys2Proof.Machine

/-! ### FORMAT-LOAD BEGIN (R67) -/

/-- How a tag stands toward loading: outside the tags that can be named, built in, or loadable (R67). -/
inductive TagKind where
  | outside | builtIn | loadable
deriving DecidableEq, Repr

/-- The kind of a tag (R64, R67). -/
def tagKind (tag : Nat) : TagKind :=
  if 16 ≤ tag ∧ tag ≤ 31 then .loadable else if 1 ≤ tag ∧ tag ≤ 6 then .builtIn else .outside

/-- The place of a loadable tag among the sixteen loadable entries (R64). -/
def loadIndex (tag : Nat) : Option (Fin 16) := if 16 ≤ tag then index? 16 (tag - 16) else none

/-- The range checks on the steering operands: two different columns below the input channel count, a shift of 4 to 12, a
slew of 1 to 64 (R67). -/
def steeringOk (inputs : Nat) (x : SteeringOperand) : Bool :=
  decide (x.first ≠ x.second ∧ x.first < inputs ∧ x.second < inputs ∧ 4 ≤ x.shift ∧ x.shift ≤ 12 ∧ 1 ≤ x.slew ∧
    x.slew ≤ 64)

/-- The range checks of R67's second step. -/
def headerOk (x : FormatHeader) : Bool :=
  decide (1 ≤ x.inputs ∧ x.inputs ≤ 16 ∧ 1 ≤ x.roles.length ∧ x.roles.length ≤ 16 ∧ x.roles.Nodup) &&
    (match x.steering with
      | some st => steeringOk x.inputs st
      | none => true)

/-- Steering fields of a record from checked operands (R64). -/
def steeringOf (x : SteeringOperand) : Option Steering :=
  match index? 16 x.first, index? 16 x.second with
  | some a, some k => some { first := a, second := k, shift := x.shift, slew := x.slew }
  | _, _ => none

/-- The staging record that a BEGIN opens: no row has coefficients given (R67). -/
def stagingOf (owner : Byte) (x : FormatHeader) : Staging :=
  { tag := x.tag, owner, inputs := x.inputs, steering := x.steering.bind steeringOf
    rows := x.roles.map fun role => { role, a := none, b := none } }

/-- FORMAT-LOAD BEGIN (R67). -/
def answerFormatLoadBegin (h : ReqHead) (x : FormatHeader) (s : State) : Answer :=
  match tagKind x.tag with
  | .outside => .refuse .range
  | .builtIn => if headerOk x then .refuse .state else .refuse .range
  | .loadable => if headerOk x then .done { s with staging := some (stagingOf h.source x) } [] else .refuse .range

/-! ### FORMAT-LOAD ROWS (R68) -/

/-- A row's coefficients from a list: column 0 upward, and zero beyond the list (R68). -/
def listedRow (coefs : List Int) : Vector Int 16 := Vector.ofFn fun j => coefs.getD j.val 0

/-- A staged row with one matrix given (R68). -/
def StagedRow.give (matrix : Matrix) (coefs : Vector Int 16) (x : StagedRow) : StagedRow :=
  match matrix with
  | .a => { x with a := some coefs }
  | .b => { x with b := some coefs }

/-- The staging record that a request may act on: open, owned by its source node, for its tag (R68, R69). -/
def State.ownStaging (s : State) (h : ReqHead) (tag : Nat) : Option Staging :=
  s.staging.filter fun g => g.owner == h.source && g.tag == tag

/-- FORMAT-LOAD ROWS (R68). The length of the list is a check of the payload's form (R179). -/
def answerFormatLoadRows (h : ReqHead) (tag row : Nat) (matrix : Matrix) (coefs : List Int) (s : State) : Answer :=
  if 1 ≤ coefs.length ∧ coefs.length ≤ 16 then
    match s.ownStaging h tag with
    | none => .refuse .state
    | some g =>
      if row < g.rows.length ∧ (matrix = .a ∨ g.steering.isSome = true) then
        .done { s with staging := some { g with rows := g.rows.modify row (StagedRow.give matrix (listedRow coefs)) } } []
      else .refuse .range
  else .refuse .range

/-! ### FORMAT-LOAD COMMIT (R69) and CLEAR (R70) -/

/-- A staged row as a row of a record, where its matrices have been given (R69). Without steering matrix B is not used. -/
def StagedRow.finished (steered : Bool) (x : StagedRow) : Option FormatRow :=
  match x.a with
  | none => none
  | some a =>
    if steered then x.b.map fun m => { role := x.role, a, b := m }
    else some { role := x.role, a, b := a }

/-- The staged record, where no row lacks coefficients (R69). -/
def Staging.finished (g : Staging) : Option FormatRecord :=
  (allKnown (g.rows.map (StagedRow.finished g.steering.isSome))).map fun rows =>
    { inputs := g.inputs, rows, steering := g.steering }

/-- Replace the loadable entry under a tag (R69, R70). -/
def State.setLoaded (s : State) (tag : Nat) (x : Option FormatRecord) : State :=
  match loadIndex tag with
  | some i => { s with loaded := s.loaded.set i.val x }
  | none => s

/-- FORMAT-LOAD COMMIT (R69). -/
def answerFormatLoadCommit (h : ReqHead) (tag : Nat) (s : State) : Answer :=
  match (s.ownStaging h tag).bind Staging.finished with
  | none => .refuse .state
  | some x => .done (({ s with staging := none }.setLoaded tag (some x)).markStale tag) []

/-- FORMAT-LOAD CLEAR (R70). A CLEAR of a tag that holds no record changes nothing. -/
def answerFormatLoadClear (tag : Nat) (s : State) : Answer :=
  match tagKind tag with
  | .outside => .refuse .range
  | .builtIn => .refuse .state
  | .loadable => if s.validTag tag then .done ((s.setLoaded tag none).markStale tag) [] else .done s []

/-! ### FORMAT-READ (R82) -/

/-- The staging record's items: whether it is open, and its tag and owner (R82), as one optional item: 0, the tag and the owner
where open, and 1 where absent (DESIGN CHOICE, assumption log 10). -/
def State.stagingWords (s : State) : List Word := optWords (fun g => [wordOf g.tag, nodeWord g.owner]) s.staging

/-- The header items of a format record (R82). -/
def FormatRecord.headerWords (x : FormatRecord) : List Word :=
  [wordOf x.inputs, flagWord x.steering.isSome, wordOf x.rows.length] ++ x.rows.map (fun w => numberOf allRoles w.role) ++
    (match x.steering with
      | some st => [wordOf st.first.val, wordOf st.second.val, wordOf st.shift, wordOf st.slew]
      | none => [])

/-- The coefficients of a row in a matrix (R82). -/
def FormatRow.matrix (x : FormatRow) : Matrix → Vector Int 16
  | .a => x.a
  | .b => x.b

/-- The tag form's items, or its refusal (R82). -/
def State.tagItems (s : State) (tag : Nat) (row : Option (Nat × Matrix)) : Except RefusalCode (List Word) :=
  if 1 ≤ tag ∧ tag ≤ 31 then
    match row, s.format? tag with
    | none, none => .ok (flagWord false :: s.stagingWords)
    | none, some x => .ok (flagWord true :: x.headerWords ++ s.stagingWords)
    | some _, none => .error .state
    | some (k, m), some x =>
      match x.rows[k]? with
      | some w =>
        if m = .a ∨ x.steering.isSome = true then .ok ((w.matrix m).toList.map coefWord ++ s.stagingWords)
        else .error .range
      | none => .error .range
  else .error .range

/-- A fold status in words: its number in the order of R79, with the partner for FOLDED (R82). DESIGN CHOICE: the partner stands right
after the status's word, with no choice word of its own (assumption log 10). -/
def foldWords : FoldStatus → List Word
  | .normal => [0]
  | .folded p => [1, wordOf p.val]
  | .dropped => [2]

/-- The screen form's items (R82). -/
def State.decodeItems (s : State) (n : Fin 8) : List Word :=
  let d := s.screens[n].dec
  [wordOf d.tag, flagWord d.stale] ++ sampleWords d.sumEnv ++ sampleWords d.diffEnv ++
    [wordOf d.target, wordOf d.weight] ++ d.folds.toList.flatMap foldWords ++ [wordOf d.foldLosses] ++ s.counterWords

/-- A reading request's answer where its items may be refused. -/
def readOrRefuse (s : State) (part : Nat) : Except RefusalCode (List Word) → Answer
  | .ok items => readAnswer s items part
  | .error code => .refuse code

/-- FORMAT-READ (R82). The form named by the operands must be the one of the screen number. -/
def answerFormatRead (h : ReqHead) (query : FormatQuery) (part : Nat) (s : State) : Answer :=
  match query, index? 8 h.screen.toNat with
  | .tag tag row, none => readOrRefuse s part (s.tagItems tag row)
  | .screen, some n => readAnswer s (s.decodeItems n) part
  | _, _ => .refuse .range

/-! ### The commands -/

/-- The command FORMAT_LOAD_BEGIN (R67). -/
def execFormatLoadBegin (h : ReqHead) (header : FormatHeader) (s : State) : Host.Outcome State Fault Refusal :=
  live s fun s => s.request h .formatLoadBegin (answerFormatLoadBegin h header)

/-- The command FORMAT_LOAD_ROWS (R68). -/
def execFormatLoadRows (h : ReqHead) (tag row : Nat) (matrix : Matrix) (coefs : List Int) (s : State) :
    Host.Outcome State Fault Refusal :=
  live s fun s => s.request h .formatLoadRows (answerFormatLoadRows h tag row matrix coefs)

/-- The command FORMAT_LOAD_COMMIT (R69). -/
def execFormatLoadCommit (h : ReqHead) (tag : Nat) (s : State) : Host.Outcome State Fault Refusal :=
  live s fun s => s.request h .formatLoadCommit (answerFormatLoadCommit h tag)

/-- The command FORMAT_LOAD_CLEAR (R70). -/
def execFormatLoadClear (h : ReqHead) (tag : Nat) (s : State) : Host.Outcome State Fault Refusal :=
  live s fun s => s.request h .formatLoadClear (answerFormatLoadClear tag)

/-- The command FORMAT_READ (R82). -/
def execFormatRead (h : ReqHead) (query : FormatQuery) (part : Nat) (s : State) : Host.Outcome State Fault Refusal :=
  live s fun s => s.request h .formatRead (answerFormatRead h query part)

end Sys2Proof.Machine
end

