-- ==== Sys2Proof/Machine/EqRequests.lean ====
section
/-! DEFINITION. The requests on the filter engine: EQ-LOAD in its two parts, EQ-READ, EQ-SELECT, FADE and MUTE (sections
5.4 to 5.7). -/

namespace Sys2Proof.Machine

/-! ### Loading -/

/-- The most sections of a record (R84). -/
def sectionMax : Nat := 12

/-- The longest delay (R84). -/
def delayMax : Nat := 4800

/-- The section budget of the part (R86). -/
def sectionBudget : Nat := 2048

/-- The delay pool of the part (R87). -/
def delayPool : Nat := 65536

/-- The coefficients of a section that passes its input (R102). -/
def passThrough : Coefs := { b0 := 1048576, b1 := 0, b2 := 0, a1 := 0, a2 := 0 }

/-- A section at rest with given coefficients (R85). -/
def restSection (x : Coefs) : Section := { coefs := x, x1 := 0, x2 := 0, y1 := 0, y2 := 0 }

/-- The record that a HEAD leaves: kept sections, pass-through sections added, all at rest (R102). -/
def Chain.head (count delay trim : Nat) (x : Chain) : Chain :=
  { sections := (x.sections.take count).map Section.rest ++
      List.replicate (count - x.sections.length) (restSection passThrough)
    delay, trim }

/-- Change one record of a bank (R84). -/
def Engine.modChain (e : Engine) (k : Bank) (c : Fin 16) (f : Chain → Chain) : Engine :=
  e.setBank k ((e.bank k).set c.val (f (e.bank k)[c]))

/-- A channel's line formed again at its allocation: the newest entries are kept (R89). -/
def Engine.reformLine (e : Engine) (c : Fin 16) : Engine :=
  { e with lines := e.lines.set c.val (e.lines[c].take (e.delayAllocation c)) }

/-- A HEAD taken at the engine (R102). -/
def Engine.loadHead (k : Bank) (c : Fin 16) (count delay trim : Nat) (e : Engine) : Engine :=
  (e.modChain k c (Chain.head count delay trim)).reformLine c

/-- The conditions under which a load into a bank is refused (R101). -/
def Screen.loadBarred (x : Screen) (k : Bank) : Bool :=
  (x.eng.active == k && x.ctx.state != .dark) || x.eng.crossfade.isSome || x.eng.pendingSwitch == some k

/-- Whether the part's two totals are within their limits (R86, R87). Irreducible, so that a proof does not unfold the totals
against the two numbers: `withinBudget_iff` says what it means. -/
@[irreducible] def State.withinBudget (s : State) : Bool :=
  decide (s.sectionTotal ≤ sectionBudget) && decide (s.poolTotal ≤ delayPool)

/-- EQ-LOAD HEAD (R102). -/
def answerEqLoadHead (h : ReqHead) (k : Bank) (channel count delay trim : Nat) (s : State) : Answer :=
  onScreen h fun n =>
    match index? 16 channel with
    | none => .refuse .range
    | some c =>
      if count ≤ sectionMax ∧ delay ≤ delayMax then
        if s.screens[n].loadBarred k then .refuse .state
        else
          let t := s.modEng n (Engine.loadHead k c count delay trim)
          if t.withinBudget then .done t [] else .refuse .budget
      else .refuse .range

/-- The carried coefficients written into a record's sections from the first index, and every section put to rest (R103). -/
def Chain.writeSections (first : Nat) (new : List Coefs) (x : Chain) : Chain :=
  { x with sections := (x.sections.take first).map Section.rest ++ new.map restSection ++
            (x.sections.drop (first + new.length)).map Section.rest }

/-- EQ-LOAD SECTIONS (R103). The number of sections carried is a check of the payload's form (R179). -/
def answerEqLoadSections (h : ReqHead) (k : Bank) (channel first : Nat) (new : List Coefs) (s : State) : Answer :=
  onScreen h fun n =>
    match index? 16 channel with
    | none => .refuse .range
    | some c =>
      if 1 ≤ new.length ∧ new.length ≤ 6 ∧ first + new.length ≤ (s.screens[n].eng.bank k)[c].sections.length then
        if s.screens[n].loadBarred k then .refuse .state
        else .done (s.modEng n fun e => e.modChain k c (Chain.writeSections first new)) []
      else .refuse .range

/-! ### Reading (R106) -/

/-- The words of a crossfade: its incoming bank and frame number. -/
def crossfadeWords (x : Crossfade) : List Word := [numberOf allBanks x.incoming, wordOf x.frame]

/-- The words of a fade: its target and step. -/
def fadeWords (x : Fade) : List Word := [wordOf x.target, wordOf x.step]

/-- The screen form's items (R106), the block counter last (DESIGN CHOICE, assumption log 10). -/
def State.engineItems (s : State) (n : Fin 8) : List Word :=
  let e := s.screens[n].eng
  [numberOf allBanks e.active] ++ optWords (fun k => [numberOf allBanks k]) e.pendingSwitch ++
    optWords crossfadeWords e.crossfade ++ [wordOf e.fader] ++ optWords fadeWords e.fade ++ [flagWord e.mute] ++
    [wordOf e.sectionAllocation] ++ s.counterWords

/-- The words of a section's coefficients, in the order of R84. -/
def coefsWords (x : Coefs) : List Word :=
  sampleWords x.b0 ++ sampleWords x.b1 ++ sampleWords x.b2 ++ sampleWords x.a1 ++ sampleWords x.a2

/-- The channel form's items, or its refusal (R106). -/
def State.chainItems (s : State) (n : Fin 8) (k : Bank) (channel first : Nat) : Except RefusalCode (List Word) :=
  match index? 16 channel with
  | none => .error .range
  | some c =>
    let x := (s.screens[n].eng.bank k)[c]
    if first < x.sections.length ∨ x.sections.length = 0 then
      .ok ([wordOf x.sections.length, wordOf x.delay, wordOf x.trim] ++
        listWords (fun y => coefsWords y.coefs) ((x.sections.drop first).take 6) ++
        [wordOf (s.screens[n].eng.delayAllocation c)] ++ s.counterWords)
    else .error .range

/-- The part form's items (R106). The pool total is at most 65,536, which one word does not hold, so it has two words
(assumption log 10). -/
def State.budgetItems (s : State) : List Word :=
  wordOf s.sectionTotal :: longWords (BitVec.ofNat 32 s.poolTotal) ++
    ((List.finRange 8).map fun n => wordOf s.screens[n].eng.sectionAllocation) ++ s.counterWords

/-- EQ-READ (R106). A form that the screen number does not give is refused. -/
def answerEqRead (h : ReqHead) (query : EqQuery) (part : Nat) (s : State) : Answer :=
  match query, index? 8 h.screen.toNat with
  | .screen, some n => readAnswer s (s.engineItems n) part
  | .channel k channel first, some n => readOrRefuse s part (s.chainItems n k channel first)
  | .part, none => readAnswer s s.budgetItems part
  | .screen, none | .channel _ _ _, none | .part, some _ => .refuse .range

/-! ### EQ-SELECT, FADE and MUTE -/

/-- EQ-SELECT (R104). -/
def answerEqSelect (h : ReqHead) (k : Bank) (s : State) : Answer :=
  onScreen h fun n => .done (s.modEng n (Engine.select k)) []

/-- FADE (R94, R105). -/
def answerFade (h : ReqHead) (target duration : Nat) (s : State) : Answer :=
  onScreen h fun n => .done (s.takeFade n target duration) []

/-- MUTE (R92, R105). -/
def answerMute (h : ReqHead) (on : Bool) (s : State) : Answer := onScreen h fun n => .done (s.takeMute n on) []

/-! ### The commands -/

/-- The command EQ_LOAD_HEAD (R102). -/
def execEqLoadHead (h : ReqHead) (k : Bank) (channel count delay trim : Nat) (s : State) :
    Host.Outcome State Fault Refusal :=
  live s fun s => s.request h .eqLoadHead (answerEqLoadHead h k channel count delay trim)

/-- The command EQ_LOAD_SECTIONS (R103). -/
def execEqLoadSections (h : ReqHead) (k : Bank) (channel first : Nat) (new : List Coefs) (s : State) :
    Host.Outcome State Fault Refusal :=
  live s fun s => s.request h .eqLoadSections (answerEqLoadSections h k channel first new)

/-- The command EQ_READ (R106). -/
def execEqRead (h : ReqHead) (query : EqQuery) (part : Nat) (s : State) : Host.Outcome State Fault Refusal :=
  live s fun s => s.request h .eqRead (answerEqRead h query part)

/-- The command EQ_SELECT (R104). -/
def execEqSelect (h : ReqHead) (k : Bank) (s : State) : Host.Outcome State Fault Refusal :=
  live s fun s => s.request h .eqSelect (answerEqSelect h k)

/-- The command FADE (R94, R105). -/
def execFade (h : ReqHead) (target duration : Nat) (s : State) : Host.Outcome State Fault Refusal :=
  live s fun s => s.request h .fade (answerFade h target duration)

/-- The command MUTE (R92, R105). -/
def execMute (h : ReqHead) (on : Bool) (s : State) : Host.Outcome State Fault Refusal :=
  live s fun s => s.request h .mute (answerMute h on)

end Sys2Proof.Machine
end

