-- ==== Sys2Proof/Machine/AlarmRequests.lean ====
section
/-! DEFINITION. The requests on meters and alarms: METER-READ, ALARM-SET, ALARM-READ, ALARM-ACK and ALARM-TEST (sections 6.3,
6.6 and 6.9). -/

namespace Sys2Proof.Machine

/-! ### METER-READ -/

/-- The reply items of METER-READ (R130). -/
def State.meterItems (s : State) (n : Fin 8) : List Word :=
  let m := s.screens[n].mon
  wordOf m.speed :: m.meters.toList.flatMap (fun x => sampleWords x.peak ++ sampleWords x.level) ++ s.counterWords

/-- METER-READ (R130). -/
def answerMeterRead (h : ReqHead) (part : Nat) (s : State) : Answer :=
  onScreen h fun n => readAnswer s (s.meterItems n) part

/-! ### ALARM-SET -/

/-- The threshold that a class record stores: clamped for OVER and SILENT, absent for the other classes (R115). -/
def storedThreshold (cls : AlarmClass) (x : Int) : Option Int :=
  match cls with
  | .over | .silent => some (saturate x)
  | .clip | .source | .slip | .amp | .link | .cue | .format => none

/-- The class record that ALARM-SET stores (R115). -/
def classRecordOf (cls : AlarmClass) (x : AlarmOperand) : ClassRecord :=
  { enable := x.enable, level := x.level, threshold := storedThreshold cls x.threshold, count := max 1 x.count
    window := max 1 x.window, release := x.release, quiet := x.quiet }

/-- ALARM-SET at the unit: the record replaced entire, and every instance of the class returned to CLEAR (R115). -/
def Monitor.setClass (cls : AlarmClass) (x : ClassRecord) (m : Monitor) : Monitor :=
  { m with table := m.table.set (classIndex cls).val x }.clearWhere fun id => classOf id == cls

/-- ALARM-SET (R115). -/
def answerAlarmSet (h : ReqHead) (cls : AlarmClass) (x : AlarmOperand) (s : State) : Answer :=
  onScreen h fun n =>
    if x.level ≤ 3 then .done (s.alarmEvent n (Monitor.setClass cls (classRecordOf cls x))) []
    else .refuse .range

/-! ### ALARM-ACK and ALARM-TEST -/

/-- A list of alarm ids, where it has 1 to 54 entries and none above 53 (R124). -/
def alarmIds (ids : List Nat) : Option (List (Fin 54)) :=
  if 1 ≤ ids.length ∧ ids.length ≤ 54 then allKnown (ids.map (index? 54)) else none

/-- ALARM-ACK at the unit: each listed id is removed from the pending set, with its noticed mark (R124). -/
def Monitor.acknowledge (ids : List (Fin 54)) (m : Monitor) : Monitor :=
  { m with pending := Vector.ofFn fun id => if id ∈ ids then none else m.pending[id] }

/-- ALARM-TEST at the unit: each listed id is in the pending set with its noticed mark clear (R125). -/
def Monitor.test (ids : List (Fin 54)) (m : Monitor) : Monitor :=
  { m with pending := Vector.ofFn fun id => if id ∈ ids then some false else m.pending[id] }

/-- ALARM-ACK (R124). -/
def answerAlarmAck (h : ReqHead) (ids : List Nat) (s : State) : Answer :=
  onScreen h fun n =>
    match alarmIds ids with
    | some l => .done (s.modMon n (Monitor.acknowledge l)) []
    | none => .refuse .range

/-- ALARM-TEST (R125). -/
def answerAlarmTest (h : ReqHead) (ids : List Nat) (s : State) : Answer :=
  onScreen h fun n =>
    match alarmIds ids with
    | some l => .done (s.modMon n (Monitor.test l)) []
    | none => .refuse .range

/-! ### ALARM-READ -/

/-- The words of the pending set: its entries, each an id and its noticed mark, lowest id first (R131, assumption log 10). -/
def Monitor.pendingWords (m : Monitor) : List Word :=
  listWords (fun x : Fin 54 × Bool => [wordOf x.1.val, flagWord x.2])
    ((List.finRange 54).filterMap fun id => m.pending[id].map fun noticed => (id, noticed))

/-- The words of the mark queue, head first (R131). -/
def Monitor.markWords (m : Monitor) : List Word := listWords (fun x => [wordOf x.cue, wordOf x.level]) m.marks

/-- The words of a class record (R114). -/
def recordWords (x : ClassRecord) : List Word :=
  [flagWord x.enable, wordOf x.level] ++ optWords sampleWords x.threshold ++
    [wordOf x.count, wordOf x.window, wordOf x.release, flagWord x.quiet]

/-- The words of one instance: its state, then what that state holds, with no choice word (R131; DESIGN CHOICE, assumption log 10). -/
def alarmWords (x : Alarm) : List Word :=
  wordOf (alarmStateCode x.state) ::
    match x.state with
    | .clear | .raised => []
    | .qualifying => [wordOf x.count, wordOf x.left]
    | .releasing => [wordOf x.clean]

/-- The reply items of ALARM-READ without an alarm id (R131). -/
def State.alarmItems (s : State) (n : Fin 8) : List Word :=
  let m := s.screens[n].mon
  m.alarms.toList.map (fun x => wordOf (alarmStateCode x.state)) ++ m.pendingWords ++ optNat m.summary ++ m.markWords ++
    [wordOf m.markOverflow, flagWord s.screens[n].quiet.isSome] ++ s.counterWords

/-- The reply items of ALARM-READ with an alarm id (R131). -/
def State.oneAlarmItems (s : State) (n : Fin 8) (id : Fin 54) : List Word :=
  let m := s.screens[n].mon
  alarmWords m.alarms[id] ++ optWords (fun noticed => [flagWord noticed]) m.pending[id] ++ recordWords (m.record id) ++
    s.counterWords

/-- ALARM-READ (R131). -/
def answerAlarmRead (h : ReqHead) (id : Option Nat) (part : Nat) (s : State) : Answer :=
  onScreen h fun n =>
    match id with
    | none => readAnswer s (s.alarmItems n) part
    | some k => match index? 54 k with
      | some i => readAnswer s (s.oneAlarmItems n i) part
      | none => .refuse .range

/-! ### The commands -/

/-- The command METER_READ (R130). -/
def execMeterRead (h : ReqHead) (part : Nat) (s : State) : Host.Outcome State Fault Refusal :=
  live s fun s => s.request h .meterRead (answerMeterRead h part)

/-- The command ALARM_SET (R115). -/
def execAlarmSet (h : ReqHead) (cls : AlarmClass) (record : AlarmOperand) (s : State) :
    Host.Outcome State Fault Refusal :=
  live s fun s => s.request h .alarmSet (answerAlarmSet h cls record)

/-- The command ALARM_READ (R131). -/
def execAlarmRead (h : ReqHead) (id : Option Nat) (part : Nat) (s : State) : Host.Outcome State Fault Refusal :=
  live s fun s => s.request h .alarmRead (answerAlarmRead h id part)

/-- The command ALARM_ACK (R124). -/
def execAlarmAck (h : ReqHead) (ids : List Nat) (s : State) : Host.Outcome State Fault Refusal :=
  live s fun s => s.request h .alarmAck (answerAlarmAck h ids)

/-- The command ALARM_TEST (R125). -/
def execAlarmTest (h : ReqHead) (ids : List Nat) (s : State) : Host.Outcome State Fault Refusal :=
  live s fun s => s.request h .alarmTest (answerAlarmTest h ids)

end Sys2Proof.Machine
end

