-- ==== Sys2Proof/Machine/CueRequests.lean ====
section
/-! DEFINITION. The requests on cues and contact lines: CUE-LOAD, CUE-DELETE, CUE-READ, CUE-FIRE, CUE-REARM, CONTACT-SET and
CONTACT-DRIVE (sections 7.5 and 7.6). -/

namespace Sys2Proof.Machine

/-! ### CUE-LOAD -/

/-- The check of a drive: a pulse lasts 1 to 10,000 ms (R149, R160). -/
def driveOk : Drive → Bool
  | .closeLine | .openLine => true
  | .pulse ms => decide (1 ≤ ms ∧ ms ≤ 10000)

/-- The check of a cue action's operands (R149). -/
def actionOk : CueAction → Bool
  | .contact line d => decide (line < 16) && driveOk d
  | .format (some tag) => decide (1 ≤ tag ∧ tag ≤ 31)
  | .quiet d => decide (d ≤ 3600000)
  | .mark level => decide (level ≤ 3)
  | .format none | .fade _ _ | .mute _ | .eqBank _ | .source _ => true

/-- The action that a cue stores: a FADE's target and duration are clamped (R149). -/
def storedAction : CueAction → CueAction
  | .fade t d => .fade (min t 16384) (min d 60000)
  | .contact line d => .contact line d
  | .mute on => .mute on
  | .eqBank x => .eqBank x
  | .format tag => .format tag
  | .source role => .source role
  | .quiet d => .quiet d
  | .mark level => .mark level

/-- Whether a cue is already due at its load (R150). -/
def Screen.alreadyDue (x : Screen) (program trigger : Long) : Bool :=
  match x.ctx.state, x.ctx.lastProgram, x.ctx.lastPosition with
  | .running, some n, some p => (program == 0 || program == n) && decide (trigger.toNat ≤ p.toNat)
  | _, _, _ => false

/-- The cue record that a load writes (R149, R150). -/
def Screen.cueOf (x : Screen) (record : Nat) (k : CueOperand) : Cue :=
  let due := x.alreadyDue k.program k.trigger
  { record, id := k.id, program := k.program, trigger := k.trigger, action := storedAction k.action, catchUp := k.catchUp
    state := if due = true ∧ k.fireIfDue = false then .passed else .armed, outcome := none
    loadDue := due && k.fireIfDue }

/-- A cue taken into a screen's list: an id already there has its record written afresh and placed again; a new id takes the
top of the free stack. None where the free stack is empty (R149, R133, R134). -/
def State.loadCue (s : State) (n : Fin 8) (k : CueOperand) : Option State :=
  let x := s.screens[n]
  match findCue k.id x.cues with
  | some c => some (s.modCues n fun l => placeCue (x.cueOf c.record k) (removeCue k.id l))
  | none => match s.freeStack with
    | record :: rest => some ({ s with freeStack := rest }.modCues n fun l => placeCue (x.cueOf record k) l)
    | [] => none

/-- CUE-LOAD (R149, R150). -/
def answerCueLoad (h : ReqHead) (k : CueOperand) (s : State) : Answer :=
  onScreen h fun n =>
    if k.id ≠ 0 ∧ actionOk k.action = true then
      match s.loadCue n k with
      | some t => .done t []
      | none => .refuse .full
    else .refuse .range

/-! ### CUE-DELETE and CUE-REARM -/

/-- The check of a list of cue ids, or of the word all (R151, R153). -/
def selectionOk : CueSelection → Bool
  | .ids ids => decide (1 ≤ ids.length ∧ ids.length ≤ 16 ∧ 0 ∉ ids)
  | .all => true

/-- The cue ids of a screen's list that a selection names, in the order they are acted on (R151, R153). -/
def selectedIds (x : Screen) : CueSelection → List Nat
  | .ids ids => ids
  | .all => x.cues.map (·.id)

/-- Remove one cue from a screen's list and return its record to the top of the free stack; an id not in the list is passed
over (R151). -/
def State.deleteCue (n : Fin 8) (id : Nat) (s : State) : State :=
  match findCue id s.screens[n].cues with
  | some c => { s with freeStack := c.record :: s.freeStack }.modCues n (removeCue id)
  | none => s

/-- The selected cues removed (R151). -/
def State.deleteCues (s : State) (n : Fin 8) (which : CueSelection) : State :=
  forEach (selectedIds s.screens[n] which) (State.deleteCue n) s

/-- CUE-DELETE, with the number of cues removed (R151). -/
def answerCueDelete (h : ReqHead) (which : CueSelection) (s : State) : Answer :=
  onScreen h fun n =>
    if selectionOk which then
      let t := s.deleteCues n which
      .done t [wordOf (s.screens[n].cues.length - t.screens[n].cues.length)]
    else .refuse .range

/-- CUE-REARM (R153). -/
def answerCueRearm (h : ReqHead) (which : CueSelection) (s : State) : Answer :=
  onScreen h fun n =>
    if selectionOk which then
      let ids := selectedIds s.screens[n] which
      .done (s.modCues n (List.map fun c => if c.id ∈ ids then c.rearm else c)) []
    else .refuse .range

/-! ### CUE-FIRE -/

/-- The word of an outcome (R135). -/
def outcomeWord (x : CueOutcome) : Word := numberOf allOutcomes x

/-- CUE-FIRE, with the outcome of this firing (R152). -/
def answerCueFire (h : ReqHead) (id : Nat) (s : State) : Answer :=
  onScreen h fun n =>
    if id = 0 then .refuse .range
    else match findCue id s.screens[n].cues with
      | some c => .done (s.fireCue n c) [outcomeWord (s.outcomeOf n c.action)]
      | none => .refuse .state

/-! ### CUE-READ -/

/-- The words of a cue record, every field of R135. -/
def cueWords (c : Cue) : List Word :=
  wordOf c.id :: longWords c.program ++ longWords c.trigger ++ actionWords c.action ++
    [flagWord c.catchUp, numberOf allCueStates c.state] ++ optWords (fun x => [outcomeWord x]) c.outcome ++
    [flagWord c.loadDue]

/-- The screen form's items (R154). The quiet interval is one optional item, open 0 with its end or closed 1, and the block counter
stands last: both are the model's choice (DESIGN CHOICE, assumption log 10). -/
def State.cueItems (s : State) (n : Fin 8) : List Word :=
  let x := s.screens[n]
  wordOf x.cues.length :: allCueStates.map (fun st => wordOf (x.cues.countP fun c => c.state == st)) ++
    [wordOf s.freeStack.length] ++ optWords longWords x.quiet ++ s.counterWords

/-- The list form's items (R154), the block counter last (DESIGN CHOICE, assumption log 10). -/
def State.cueListItems (s : State) (n : Fin 8) (first : Nat) : List Word :=
  listWords cueWords ((s.screens[n].cues.drop first).take 6) ++ s.counterWords

/-- The words of a contact line's record (R156). -/
def lineWords (l : Line) : List Word :=
  optNat (l.owner.map (·.val)) ++ [numberOf allModes l.mode, wordOf l.threshold, lineStateWord l.closed] ++
    optWords longWords l.pulseEnd
where
  /-- OPEN 0, CLOSED 1, in the order R156 names them. -/
  lineStateWord (closed : Bool) : Word := if closed then 1 else 0

/-- The part form's items (R154), the block counter last (DESIGN CHOICE, assumption log 10). -/
def State.lineItems (s : State) : List Word :=
  wordOf s.freeStack.length :: s.lines.toList.flatMap lineWords ++ s.counterWords

/-- CUE-READ (R154). The form named by the operands must be one of the screen number's. The cue form too gives the block counter
last (DESIGN CHOICE, assumption log 10). -/
def answerCueRead (h : ReqHead) (query : CueQuery) (part : Nat) (s : State) : Answer :=
  match query, index? 8 h.screen.toNat with
  | .screen, some n => readAnswer s (s.cueItems n) part
  | .cue id, some n =>
    if id = 0 then .refuse .range
    else match findCue id s.screens[n].cues with
      | some c => readAnswer s (cueWords c ++ s.counterWords) part
      | none => .refuse .state
  | .list first, some n => readAnswer s (s.cueListItems n first) part
  | .part, none => readAnswer s s.lineItems part
  | _, _ => .refuse .range

/-! ### Contact lines -/

/-- Hand a request to a contact line; a line of 16 or above is refused (R159, R160). -/
def onLine (line : Nat) (f : Fin 16 → Answer) : Answer :=
  match index? 16 line with
  | some l => f l
  | none => .refuse .range

/-- The record that CONTACT-SET leaves, with an ALARM-mode line set from its owner's current summary (R159). -/
def State.lineOf (s : State) (owner : Option (Fin 8)) (mode : LineMode) (threshold : Nat) : Line :=
  { owner, mode, threshold, pulseEnd := none
    closed := match mode, owner with
      | .alarm, some n => summaryCloses s.screens[n].mon.summary threshold
      | _, _ => false }

/-- CONTACT-SET (R159). -/
def answerContactSet (line : Nat) (owner : Option Nat) (mode : LineMode) (threshold : Nat) (s : State) : Answer :=
  onLine line fun l =>
    if optBelow 8 owner = true ∧ threshold ≤ 3 then
      .done (s.modLine l fun _ => s.lineOf (owner.bind (index? 8)) mode threshold) []
    else .refuse .range

/-- CONTACT-DRIVE (R160). -/
def answerContactDrive (h : ReqHead) (line : Nat) (d : Drive) (s : State) : Answer :=
  onScreen h fun n => onLine line fun l =>
    if driveOk d then
      if s.lines[l].drivenBy n then .done (s.modLine l (Line.drive s.blockCounter d)) [] else .refuse .state
    else .refuse .range

/-! ### The commands -/

/-- The command CUE_LOAD (R149, R150). -/
def execCueLoad (h : ReqHead) (cue : CueOperand) (s : State) : Host.Outcome State Fault Refusal :=
  live s fun s => s.request h .cueLoad (answerCueLoad h cue)

/-- The command CUE_DELETE (R151). -/
def execCueDelete (h : ReqHead) (which : CueSelection) (s : State) : Host.Outcome State Fault Refusal :=
  live s fun s => s.request h .cueDelete (answerCueDelete h which)

/-- The command CUE_READ (R154). -/
def execCueRead (h : ReqHead) (query : CueQuery) (part : Nat) (s : State) : Host.Outcome State Fault Refusal :=
  live s fun s => s.request h .cueRead (answerCueRead h query part)

/-- The command CUE_FIRE (R152). -/
def execCueFire (h : ReqHead) (id : Nat) (s : State) : Host.Outcome State Fault Refusal :=
  live s fun s => s.request h .cueFire (answerCueFire h id)

/-- The command CUE_REARM (R153). -/
def execCueRearm (h : ReqHead) (which : CueSelection) (s : State) : Host.Outcome State Fault Refusal :=
  live s fun s => s.request h .cueRearm (answerCueRearm h which)

/-- The command CONTACT_SET (R159). -/
def execContactSet (h : ReqHead) (line : Nat) (owner : Option Nat) (mode : LineMode) (threshold : Nat) (s : State) :
    Host.Outcome State Fault Refusal :=
  live s fun s => s.request h .contactSet (answerContactSet line owner mode threshold)

/-- The command CONTACT_DRIVE (R160). -/
def execContactDrive (h : ReqHead) (line : Nat) (drive : Drive) (s : State) : Host.Outcome State Fault Refusal :=
  live s fun s => s.request h .contactDrive (answerContactDrive h line drive)

end Sys2Proof.Machine
end

