-- ==== Sys2Proof/Machine/NoticeRequests.lean ====
section
/-! DEFINITION. The requests on notices: NOTICE-DONE, NOTICE-READ and NOTICE-ROUTE in its two forms (sections 8.2, 8.3 and
8.6). -/

namespace Sys2Proof.Machine

/-! ### NOTICE-DONE -/

/-- The noticed mark of a removed entry's alarm: cleared at level 0 where the alarm is still pending (R164). -/
def Monitor.noticeAgain (e : StackEntry) (m : Monitor) : Monitor :=
  match e.source with
  | .alarm id => if e.level = 0 ∧ m.pending[id].isSome then { m with pending := m.pending.set id.val (some false) } else m
  | .mark _ => m

/-- The top entry of the stack removed, with the ceiling it saved (R164). -/
def NoticeUnit.pop (e : StackEntry) (rest : List StackEntry) (u : NoticeUnit) : NoticeUnit :=
  { u with stack := rest, ceiling := e.saved }

/-- NOTICE-DONE (R164). -/
def answerNoticeDone (h : ReqHead) (tag : Option Word) (s : State) : Answer :=
  onScreen h fun n =>
    match s.screens[n].notice.stack with
    | [] => .refuse .state
    | e :: rest =>
      if tag = none ∨ tag = some e.tag then
        .done (s.modScreen n fun x => { x with mon := x.mon.noticeAgain e, notice := x.notice.pop e rest }) [e.tag]
      else .refuse .state

/-! ### NOTICE-READ -/

/-- The words of a notice source: ALARM or MARK, then its id (R163). -/
def sourceWords : NoticeSource → List Word
  | .alarm id => [0, wordOf id.val]
  | .mark cue => [1, wordOf cue]

/-- The words of a stack entry, in the order chapter 8 lists its fields. -/
def stackWords (e : StackEntry) : List Word := wordOf e.saved :: sourceWords e.source ++ [wordOf e.level, e.tag]

/-- The words of an unsent notice: waiting or being sent, and its tag (R173). -/
def unsentWords (u : Unsent) : List Word := [if u.sending then 1 else 0, u.tag]

/-- The screen form's items (R173), the block counter last (DESIGN CHOICE, assumption log 10). -/
def State.noticeItems (s : State) (n : Fin 8) : List Word :=
  let x := s.screens[n]
  wordOf x.notice.ceiling :: listWords stackWords x.notice.stack.reverse ++ x.mon.pendingWords ++ x.mon.markWords ++
    optWords unsentWords x.notice.unsent ++ optWords routeWords x.ctx.route ++
    [x.notice.sequence, wordOf x.notice.lost] ++ s.counterWords

/-- Whether a requester stands in a port's cyclic order (R169). -/
def State.requests (s : State) (p : Fin 12) : Requester → Bool
  | .resp => true
  | .screen n => match s.screens[n].ctx.route with
    | some x => x.port == p
    | none => false

/-- A requester's guaranteed count G at a port (R169). -/
def State.guaranteeOf (s : State) (p : Fin 12) : Requester → Nat
  | .resp => s.arbiters[p].respCount
  | .screen n => match s.screens[n].ctx.route with
    | some x => x.count
    | none => 0

/-- The words of one requester: its G, W, remaining count and whether it waits (R173), with its number before them, which R173 does
not list (DESIGN CHOICE, assumption log 10). -/
def State.requesterWords (s : State) (p : Fin 12) (q : Requester) : List Word :=
  [requesterWord q, wordOf (s.guaranteeOf p q), wordOf (s.weightOf p q), wordOf (s.arbiters[p].leftOf q),
   flagWord (s.waits p q)]

/-- The port form's items (R173), the block counter last. Whether the channel is busy, and with which requester's message, is one
optional item: 0 and the requester's number where busy, 1 where free (both DESIGN CHOICE, assumption log 10). -/
def State.arbiterItems (s : State) (p : Fin 12) : List Word :=
  let a := s.arbiters[p]
  [wordOf a.interval, wordOf a.nextInterval, wordOf a.remainder] ++
    listWords (s.requesterWords p) (requesterOrder.filter (s.requests p)) ++
    optWords (fun q => [requesterWord q]) a.lastGranted ++ optWords (fun q => [requesterWord q]) a.holder ++
    [wordOf a.burst] ++ optWords (fun m => [requesterWord m.owner]) a.channel ++
    [wordOf a.queue.length, wordOf a.requestsDiscarded, wordOf a.responsesExpired, wordOf a.messagesAbandoned] ++
    s.counterWords

/-- NOTICE-READ (R173). The form named by the operands must be the one of the screen number. -/
def answerNoticeRead (h : ReqHead) (query : NoticeQuery) (part : Nat) (s : State) : Answer :=
  match query, index? 8 h.screen.toNat with
  | .screen, some n => readAnswer s (s.noticeItems n) part
  | .port port, none => onPort port fun p => readAnswer s (s.arbiterItems p) part
  | _, _ => .refuse .range

/-! ### NOTICE-ROUTE, screen form -/

/-- The check of a guaranteed count and a weight (R166, R167). -/
def shareOk (count weight : Nat) : Bool := decide (count ≤ 15 ∧ 1 ≤ weight ∧ weight ≤ 8)

/-- The route that a request carries, where its operands are in range: one without G and W takes 1 and 1 (R166). -/
def routeOf (x : RouteOperand) : Option Route :=
  match index? 12 x.port with
  | none => none
  | some p =>
    let share := x.share.getD (1, 1)
    if shareOk share.1 share.2 then some { port := p, node := x.node, count := share.1, weight := share.2 } else none

/-- A requester that leaves a port's order: its remaining count is gone, and it is replaced by none as the last guaranteed
grant and as the rotation holder (R166, R171). The burst count of a holder that leaves becomes 0, which R171 does not say
(DESIGN CHOICE, assumption log 30). -/
def Arbiter.leave (n : Fin 8) (a : Arbiter) : Arbiter :=
  let held := a.holder = some (.screen n)
  { a with screenLeft := a.screenLeft.set n.val 0
           lastGranted := if a.lastGranted = some (.screen n) then none else a.lastGranted
           holder := if held then none else a.holder
           burst := if held then 0 else a.burst }

/-- Whether a new route keeps the port and the node of the old one (R166). -/
def keepsDestination (old new : Option Route) : Bool :=
  match old, new with
  | some x, some y => x.port == y.port && x.node == y.node
  | none, none => true
  | _, _ => false

/-- A waiting unsent notice is discarded and counted lost; one being sent stays (R166). -/
def NoticeUnit.loseWaiting (u : NoticeUnit) : NoticeUnit :=
  match u.unsent with
  | some x => if x.sending then u else { u with unsent := none, lost := bump u.lost }
  | none => u

/-- The requesters' side of a route change: the screen leaves the old port's order and joins the new one's with a remaining
count of 0 (R166). -/
def State.leaveOldPort (s : State) (n : Fin 8) (old : Option Route) : State :=
  match old with
  | some x => s.modArb x.port (Arbiter.leave n)
  | none => s

/-- A screen's route replaced (R166). -/
def State.setRoute (s : State) (n : Fin 8) (new : Option Route) : State :=
  let old := s.screens[n].ctx.route
  let t := s.modCtx n fun c => { c with route := new }
  if keepsDestination old new then t
  else (t.modNotice n NoticeUnit.loseWaiting).leaveOldPort n old

/-- NOTICE-ROUTE in its screen form (R166). -/
def answerNoticeRouteScreen (h : ReqHead) (route : Option RouteOperand) (s : State) : Answer :=
  onScreen h fun n =>
    match route with
    | none => .done (s.setRoute n none) []
    | some x => match routeOf x with
      | some r => .done (s.setRoute n (some r)) []
      | none => .refuse .range

/-! ### NOTICE-ROUTE, port form -/

/-- NOTICE-ROUTE in its port form (R167). -/
def answerNoticeRoutePort (port count weight interval : Nat) (s : State) : Answer :=
  onPort port fun p =>
    if shareOk count weight = true ∧ 1 ≤ interval ∧ interval ≤ 255 then
      .done (s.modArb p fun a => { a with nextInterval := interval, respCount := count, respWeight := weight }) []
    else .refuse .range

/-! ### The commands -/

/-- The command NOTICE_DONE (R164). -/
def execNoticeDone (h : ReqHead) (tag : Option Word) (s : State) : Host.Outcome State Fault Refusal :=
  live s fun s => s.request h .noticeDone (answerNoticeDone h tag)

/-- The command NOTICE_READ (R173). -/
def execNoticeRead (h : ReqHead) (query : NoticeQuery) (part : Nat) (s : State) : Host.Outcome State Fault Refusal :=
  live s fun s => s.request h .noticeRead (answerNoticeRead h query part)

/-- The command NOTICE_ROUTE in its screen form (R166). -/
def execNoticeRouteScreen (h : ReqHead) (route : Option RouteOperand) (s : State) : Host.Outcome State Fault Refusal :=
  live s fun s => s.request h .noticeRouteScreen (answerNoticeRouteScreen h route)

/-- The command NOTICE_ROUTE in its port form (R167). -/
def execNoticeRoutePort (h : ReqHead) (port count weight interval : Nat) (s : State) :
    Host.Outcome State Fault Refusal :=
  live s fun s => s.request h .noticeRoutePort (answerNoticeRoutePort port count weight interval)

end Sys2Proof.Machine
end

