-- ==== Sys2Proof/Machine/Intake.lean ====
section
/-! DEFINITION. The taking in of a service message as words: its head, its kind, the reading of its payload and the request
it makes (R177, R179, R193); and the arrival of a forward frame at a program port (chapter 1). -/

namespace Sys2Proof.Machine

/-! ### From payload words to a request's answer -/

/-- The answer of a request whose operands a payload holds; a payload that does not hold them exactly is refused (R179). -/
def answerRead {α : Type} (reader : Read α) (payload : List Word) (f : α → State → Answer) (s : State) : Answer :=
  match readAll reader payload with
  | some a => f a s
  | none => .refuse .range

/-- No operand at all. -/
def readNothing : Read Unit := return ()

/-- PORT-SET's operands (R22). -/
def readPortSet : Read (State → Answer) := do
  let port ← readNat
  let enable ← readFlag
  let holdover ← readNat
  let dropCount ← readNat
  let dropWindow ← readNat
  let dropEnable ← readFlag
  return answerPortSet port enable holdover dropCount dropWindow dropEnable

/-- FORMAT-READ's operands in the form that the screen number gives (R82). -/
def readFormatQuery (onScreen : Bool) : Read FormatQuery := do
  if onScreen then return .screen
  else return .tag (← readNat) (← readOpt (do return (← readNat, ← readNamed allMatrices)))

/-- EQ-READ's operands in the form that the screen number gives. On a screen, R106 has two forms and R193 codes one of two
forms by a choice word: 0 the screen form, 1 the channel form with its operands (assumption log 28). -/
def readEqQuery (onScreen : Bool) : Read EqQuery := do
  if onScreen then
    match ← readNamed [0, 1] with
    | 0 => return .screen
    | _ => return .channel (← readNamed allBanks) (← readNat) (← readNat)
  else return .part

/-- CUE-READ's operands in the form that the screen number gives (R154). -/
def readCueQuery (onScreen : Bool) : Read CueQuery := do
  if onScreen then
    match ← readNamed [0, 1, 2] with
    | 0 => return .screen
    | 1 => return .cue (← readNat)
    | _ => return .list (← readNat)
  else return .part

/-- NOTICE-READ's operands in the form that the screen number gives (R173). -/
def readNoticeQuery (onScreen : Bool) : Read NoticeQuery := do
  if onScreen then return .screen else return .port (← readNat)

/-- The answer of a request of a kind to a payload: its operands in catalogue order, then the owning block's answer (R179,
section 9.6). A reading request ends in its part index (R181). -/
def answerWords (h : ReqHead) (k : ReqKind) (payload : List Word) : State → Answer :=
  let onScreen := decide (h.screen.toNat < 8)
  let read {α : Type} (r : Read α) (f : α → State → Answer) : State → Answer := answerRead r payload f
  match k with
  | .partStatus => read readNat answerPartStatus
  | .partReset => read readNothing fun _ => answerPartReset h
  | .lockTake => read readNothing fun _ => answerLockTake h
  | .lockFree => read readClearFirst (answerLockFree h)
  | .portRead => read (do return (← readNat, ← readNat)) fun a => answerPortRead a.1 a.2
  | .portSet => read readPortSet fun f => f
  | .portClear => read readNat answerPortClear
  | .portRestart => read readNat answerPortRestart
  | .screenRead => read readNat (answerScreenRead h)
  | .screenSet => read (readRest readItem payloadMax) (answerScreenSet h)
  | .screenState => read (readNamed allScreenStates) (answerScreenState h)
  | .screenSource => read (readNamed allSourceRoles) (answerScreenSource h)
  | .screenReset => read readNothing fun _ => answerScreenReset h
  | .formatLoadBegin => read readHeader (answerFormatLoadBegin h)
  | .formatLoadRows =>
    read (do return (← readNat, ← readNat, ← readNamed allMatrices, ← readRest readCoef payloadMax))
      fun a => answerFormatLoadRows h a.1 a.2.1 a.2.2.1 a.2.2.2
  | .formatLoadCommit => read readNat (answerFormatLoadCommit h)
  | .formatLoadClear => read readNat answerFormatLoadClear
  | .formatRead => read (do return (← readFormatQuery onScreen, ← readNat)) fun a => answerFormatRead h a.1 a.2
  | .eqLoadHead =>
    read (do return (← readNamed allBanks, ← readNat, ← readNat, ← readNat, ← readNat))
      fun a => answerEqLoadHead h a.1 a.2.1 a.2.2.1 a.2.2.2.1 a.2.2.2.2
  | .eqLoadSections =>
    read (do return (← readNamed allBanks, ← readNat, ← readNat, ← readRest readCoefs payloadMax))
      fun a => answerEqLoadSections h a.1 a.2.1 a.2.2.1 a.2.2.2
  | .eqRead => read (do return (← readEqQuery onScreen, ← readNat)) fun a => answerEqRead h a.1 a.2
  | .eqSelect => read (readNamed allBanks) (answerEqSelect h)
  | .fade => read (do return (← readNat, ← readNat)) fun a => answerFade h a.1 a.2
  | .mute => read readFlag (answerMute h)
  | .meterRead => read readNat (answerMeterRead h)
  | .alarmSet => read (do return (← readNamed allClasses, ← readRecord)) fun a => answerAlarmSet h a.1 a.2
  | .alarmRead => read (do return (← readOpt readNat, ← readNat)) fun a => answerAlarmRead h a.1 a.2
  | .alarmAck => read (readRest readNat payloadMax) (answerAlarmAck h)
  | .alarmTest => read (readRest readNat payloadMax) (answerAlarmTest h)
  | .cueLoad => read readCue (answerCueLoad h)
  | .cueDelete => read readSelection (answerCueDelete h)
  | .cueRead => read (do return (← readCueQuery onScreen, ← readNat)) fun a => answerCueRead h a.1 a.2
  | .cueFire => read readNat (answerCueFire h)
  | .cueRearm => read readSelection (answerCueRearm h)
  | .contactSet =>
    read (do return (← readNat, ← readOpt readNat, ← readNamed allModes, ← readNat))
      fun a => answerContactSet a.1 a.2.1 a.2.2.1 a.2.2.2
  | .contactDrive => read (do return (← readNat, ← readDrive)) fun a => answerContactDrive h a.1 a.2
  | .noticeDone => read (readOpt readWord) (answerNoticeDone h)
  | .noticeRead => read (do return (← readNoticeQuery onScreen, ← readNat)) fun a => answerNoticeRead h a.1 a.2
  | .noticeRouteScreen => read (readOpt readRoute) (answerNoticeRouteScreen h)
  | .noticeRoutePort =>
    read (do return (← readNat, ← readNat, ← readNat, ← readNat))
      fun a => answerNoticeRoutePort a.1 a.2.1 a.2.2.1 a.2.2.2

/-! ### From words to a request -/

/-- The request that a kind number names, for a screen number (R177, R193): NOTICE-ROUTE with 15 is its port form. -/
def kindOf (kind : BitVec 11) (screen : BitVec 4) : Option ReqKind :=
  if kind = 39 ∧ screen = 15 then some .noticeRoutePort else catalogue.find? fun k => k.number == kind

/-- A message complete in itself reaches the service unit from a port (R19, R176, R177, R193). -/
def State.takeMessage (s : State) (p : Fin 12) (words : List Word) : State :=
  match words with
  | start :: second :: tag :: rest =>
    let h : ReqHead := { port := p, source := start.extractLsb' 0 8, tag, screen := second.extractLsb' 0 4 }
    let kind := second.extractLsb' 4 11
    if second.getLsbD 15 then s.requestUnknown h kind
    else match kindOf kind h.screen with
      | some k => s.request h k (answerWords h k rest.dropLast)
      | none => s.requestUnknown h kind
  | _ => s

/-! ### A forward frame arrives -/

/-- The frame index that an error of this arrival is captured with, and the free value drawn for it where R21 and R5 leave
it unstated (assumption log 6). -/
def State.arrivalIndex (s : State) (expected : Option Nat) (cls : FrameClass) (carried : Nat) : Option Nat :=
  errorIndex cls expected carried (Config.freeIndex s.freeCount)

/-- The free index counted as drawn, where the arrival has none of its own. -/
def State.drawIndex (s : State) (expected : Option Nat) (cls : FrameClass) : State :=
  if cls = .checkError ∧ expected = none then { s with freeCount := s.freeCount + 1 } else s

/-- The descriptor's share of an arrival: in LOCKED, and only where the frame leaves the port LOCKED (R14). -/
def State.takeDescriptor (s : State) (p : Fin 12) (before : Port) (cls : FrameClass) (byte : Byte) : State :=
  match before.state, before.expected with
  | .locked, some e => if s.ports[p].state = .locked then s.takeHeaderByte p cls byte e else s
  | _, _ => s

/-- A forward frame arrives at a program port: link state and audio, then descriptor, then service word, and a message it
completes goes to the service unit (R1 to R6, R9, R11, R14 to R17, R19; order: assumption log 5). -/
def State.frameArrives (s : State) (p : Fin 12) (f : LinkFrame 16) : State :=
  let before := s.ports[p]
  if before.state = .down then s
  else
    let cls := classify before.expected f
    let carried := headerIndex f.header
    let index := s.arrivalIndex before.expected cls carried
    let linked := (s.drawIndex before.expected cls).takeLinkFrame p cls f.slots carried index
    let described := linked.takeDescriptor p before cls (headerByte f.header)
    let served := described.takeServiceWord p cls (headerCode f.header) f.service index
    match served.2 with
    | some words => served.1.takeMessage p words
    | none => served.1

end Sys2Proof.Machine
end

