-- ==== Sys2Proof/Machine/Events.lean ====
section
/-! DEFINITION. The commands that are not service requests: power, frames, boundaries, and the part's own timed and queued
steps. A timed step takes its item's share of the coming master block boundary ahead of the rest; it acts only when that
share ends the item, and otherwise has no effect (assumption log 2). -/

namespace Sys2Proof.Machine

/-! ### Power and reset -/

/-- POWER_ON: the straps are latched, and every block takes its power-on values (R175, R26, R43, R63, R83, R107, R132, R155,
R156, R174, R186). -/
def execPowerOn (straps : BitVec 4) (s : State) : Host.Outcome State Fault Refusal :=
  .next { State.powerOn straps s.pending with freeCount := s.freeCount }

/-- No port sends anything without power. -/
def Port.dark (x : Port) : Port := { x with sent := none }

/-- Nor does any screen port. -/
def Screen.dark (x : Screen) : Screen := { x with link := { x.link with sent := none } }

/-- The part without power: the relays are open and nothing is sent (R156). -/
def State.losePower (s : State) : State :=
  { s with powered := false, ports := Vector.ofFn fun p => s.ports[p].dark
           screens := Vector.ofFn fun n => s.screens[n].dark }

/-- POWER_LOSS (R156). -/
def execPowerLoss (s : State) : Host.Outcome State Fault Refusal := .next s.losePower

/-- PART_RESET_TAKES_EFFECT: a reset that is due takes effect (R188, R189). -/
def execPartResetTakesEffect (s : State) : Host.Outcome State Fault Refusal := live s State.takeDueReset

/-! ### Frames and boundaries -/

/-- PROGRAM_FRAME_ARRIVAL (R1). -/
def execProgramFrameArrival (p : Fin 12) (f : LinkFrame 16) (s : State) : Host.Outcome State Fault Refusal :=
  live s fun s => s.frameArrives p f

/-- MASTER_FRAME (R12, R27, R66, R88, R108, R172). -/
def execMasterFrame (s : State) : Host.Outcome State Fault Refusal := live s State.masterFrame

/-- RACK_FRAME_ARRIVAL (R30). -/
def execRackFrameArrival (n : Fin 8) (f : LinkFrame 1) (s : State) : Host.Outcome State Fault Refusal :=
  live s fun s => s.modLink n (ScreenPort.takeFrame f)

/-- MASTER_BLOCK_BOUNDARY (R109 and the boundary's share in every chapter). -/
def execMasterBlockBoundary (s : State) : Host.Outcome State Fault Refusal := live s State.boundary

/-! ### Queued steps -/

/-- ARBITER_GRANT (R170, R171). -/
def execArbiterGrant (p : Fin 12) (s : State) : Host.Outcome State Fault Refusal := live s fun s => s.grant p

/-- MESSAGE_SENT (R172). -/
def execMessageSent (p : Fin 12) (s : State) : Host.Outcome State Fault Refusal := live s (State.messageSent p)

/-- NOTICE_CHOICE (R162). -/
def execNoticeChoice (n : Fin 8) (s : State) : Host.Outcome State Fault Refusal := live s (State.choose n)

/-- CROSSFADE_END (R99). -/
def execCrossfadeEnd (n : Fin 8) (s : State) : Host.Outcome State Fault Refusal := live s (State.endCrossfade n)

/-! ### Timed steps -/

/-- The alarm's window is at its end: QUALIFYING with no block left after this one (R117). -/
def Alarm.windowEnds (a : Alarm) : Bool := a.state == .qualifying && decide (a.left ≤ 1)

/-- The alarm's release is complete with this block: RELEASING, clean, and its clean run reaches R (R117). -/
def Alarm.releaseEnds (r : ClassRecord) (a : Alarm) : Bool :=
  a.state == .releasing && !a.hit && decide (r.release ≤ a.clean + 1)

/-- The instance returned to CLEAR ahead of the coming boundary, with what was ended kept while the block lasts (assumption
log 2). -/
def Alarm.endedEarly (a : Alarm) : Alarm :=
  { alarmClear with early := match a.state with
      | .qualifying => some (.window a.count)
      | .releasing => some (.release a.clean)
      | .clear | .raised => a.early }

/-- One instance of the unit ended ahead of the boundary. -/
def Monitor.endEarly (id : Fin 54) (m : Monitor) : Monitor :=
  { m with alarms := m.alarms.set id.val m.alarms[id].endedEarly }

/-- Whether the coming boundary, as things stand, leaves an instance CLEAR: it takes the ending block's occurrence first, which
may raise the instance or hold it RAISED (R111, R112, R117). -/
def State.clearsAtBoundary (s : State) (n : Fin 8) (id : Fin 54) : Bool :=
  s.boundary.screens[n].mon.alarms[id].state == .clear

/-- An instance's boundary step taken where the coming boundary ends the instance (R117, R129, assumption log 2). -/
def State.endAlarm (s : State) (n : Fin 8) (id : Fin 54) (ends : Bool) : State :=
  if ends && s.clearsAtBoundary n id then s.alarmEvent n (Monitor.endEarly id) else s

/-- QUALIFY_WINDOW_EXPIRY (R117). -/
def execQualifyWindowExpiry (n : Fin 8) (id : Fin 54) (s : State) : Host.Outcome State Fault Refusal :=
  live s fun s => s.endAlarm n id s.screens[n].mon.alarms[id].windowEnds

/-- RELEASE_COMPLETE (R117). -/
def execReleaseComplete (n : Fin 8) (id : Fin 54) (s : State) : Host.Outcome State Fault Refusal :=
  live s fun s => s.endAlarm n id (s.screens[n].mon.alarms[id].releaseEnds (s.screens[n].mon.record id))

/-- HOLDOVER_EXPIRY (R5). -/
def execHoldoverExpiry (p : Fin 12) (s : State) : Host.Outcome State Fault Refusal :=
  live s fun s => s.unlessTaken (.holdover p) fun s =>
    if s.ports[p].state = .holdover ∧ s.ports[p].holdoverLeft ≤ 1 then (s.loseHoldover p).takeShare (.holdover p) else s

/-- An open window has one boundary left (R9). -/
def Port.windowEnds (x : Port) : Bool :=
  match x.window with
  | some w => decide (w.left ≤ 1)
  | none => false

/-- The fast-drop window closes (R9). -/
def Port.closeWindow (x : Port) : Port := { x with window := none }

/-- FAST_DROP_WINDOW_CLOSE (R9). -/
def execFastDropWindowClose (p : Fin 12) (s : State) : Host.Outcome State Fault Refusal :=
  live s fun s => s.unlessTaken (.window p) fun s =>
    if s.ports[p].windowEnds then (s.modPort p Port.closeWindow).takeShare (.window p) else s

/-- The exchange timer at its end (R35). -/
def ScreenPort.timerEnds (x : ScreenPort) : Bool := x.link == .exchange && decide (x.timer ≤ 1)

/-- EXCHANGE_TIMEOUT (R35). -/
def execExchangeTimeout (n : Fin 8) (s : State) : Host.Outcome State Fault Refusal :=
  live s fun s => s.unlessTaken (.exchange n) fun s =>
    if s.screens[n].link.timerEnds then (s.modLink n ScreenPort.timeout).takeShare (.exchange n) else s

/-- The message under assembly that times out at a service tick: the second tick after its START word (R18). -/
def State.staleMessage (s : State) (p : Fin 12) : Option Assembly :=
  if serviceTick s.nextCounter then s.ports[p].assembly.filter fun a => decide (1 ≤ a.ticks) else none

/-- SERVICE_TIMEOUT (R18). -/
def execServiceTimeout (p : Fin 12) (s : State) : Host.Outcome State Fault Refusal :=
  live s fun s => s.unlessTaken (.message p) fun s => match s.staleMessage p with
    | some a => (s.timeoutMessage p a s.nextCounter).takeShare (.message p)
    | none => s

/-- RESPONSE_EXPIRY (R168). -/
def execResponseExpiry (p : Fin 12) (s : State) : Host.Outcome State Fault Refusal :=
  live s fun s => s.expireOne s.nextCounter p

/-- ARBITER_RELOAD (R169). -/
def execArbiterReload (p : Fin 12) (s : State) : Host.Outcome State Fault Refusal :=
  live s fun s => s.unlessTaken (.reload p) fun s =>
    if s.arbiters[p].remainder ≤ 1 then (s.reload p).takeShare (.reload p) else s

/-- QUIET_INTERVAL_END (R148). -/
def execQuietIntervalEnd (n : Fin 8) (s : State) : Host.Outcome State Fault Refusal :=
  live s fun s => s.endQuiet s.nextCounter n

/-- CONTACT_PULSE_END (R157). -/
def execContactPulseEnd (l : Fin 16) (s : State) : Host.Outcome State Fault Refusal :=
  live s fun s => s.modLine l (Line.endPulse s.nextCounter)

end Sys2Proof.Machine
end

