-- ==== Sys2Proof/Machine/Dispatch.lean ====
section
/-! DEFINITION. The dispatch: one arm for each command, calling that command's meaning. -/

namespace Sys2Proof.Machine

/-- What a command does to everything but the queue of waiting commands. -/
def exec (i : Instr) (s : State) : Host.Outcome State Fault Refusal :=
  match i with
  | .powerOn straps => Sys2Proof.Machine.execPowerOn straps s
  | .partResetTakesEffect => Sys2Proof.Machine.execPartResetTakesEffect s
  | .programFrameArrival port frame => Sys2Proof.Machine.execProgramFrameArrival port frame s
  | .masterFrame => Sys2Proof.Machine.execMasterFrame s
  | .arbiterGrant port => Sys2Proof.Machine.execArbiterGrant port s
  | .messageSent port => Sys2Proof.Machine.execMessageSent port s
  | .noticeChoice screen => Sys2Proof.Machine.execNoticeChoice screen s
  | .rackFrameArrival screen frame => Sys2Proof.Machine.execRackFrameArrival screen frame s
  | .masterBlockBoundary => Sys2Proof.Machine.execMasterBlockBoundary s
  | .crossfadeEnd screen => Sys2Proof.Machine.execCrossfadeEnd screen s
  | .qualifyWindowExpiry screen alarm => Sys2Proof.Machine.execQualifyWindowExpiry screen alarm s
  | .releaseComplete screen alarm => Sys2Proof.Machine.execReleaseComplete screen alarm s
  | .holdoverExpiry port => Sys2Proof.Machine.execHoldoverExpiry port s
  | .fastDropWindowClose port => Sys2Proof.Machine.execFastDropWindowClose port s
  | .exchangeTimeout screen => Sys2Proof.Machine.execExchangeTimeout screen s
  | .serviceTimeout port => Sys2Proof.Machine.execServiceTimeout port s
  | .responseExpiry port => Sys2Proof.Machine.execResponseExpiry port s
  | .arbiterReload port => Sys2Proof.Machine.execArbiterReload port s
  | .quietIntervalEnd screen => Sys2Proof.Machine.execQuietIntervalEnd screen s
  | .contactPulseEnd line => Sys2Proof.Machine.execContactPulseEnd line s
  | .partStatus h part => Sys2Proof.Machine.execPartStatus h part s
  | .partReset h => Sys2Proof.Machine.execPartReset h s
  | .lockTake h => Sys2Proof.Machine.execLockTake h s
  | .lockFree h force => Sys2Proof.Machine.execLockFree h force s
  | .portRead h port part => Sys2Proof.Machine.execPortRead h port part s
  | .portSet h port enable holdover dropCount dropWindow dropEnable => Sys2Proof.Machine.execPortSet h port enable holdover dropCount dropWindow dropEnable s
  | .portClear h port => Sys2Proof.Machine.execPortClear h port s
  | .portRestart h port => Sys2Proof.Machine.execPortRestart h port s
  | .screenRead h part => Sys2Proof.Machine.execScreenRead h part s
  | .screenSet h items => Sys2Proof.Machine.execScreenSet h items s
  | .screenState h state => Sys2Proof.Machine.execScreenState h state s
  | .screenSource h role => Sys2Proof.Machine.execScreenSource h role s
  | .screenReset h => Sys2Proof.Machine.execScreenReset h s
  | .formatLoadBegin h header => Sys2Proof.Machine.execFormatLoadBegin h header s
  | .formatLoadRows h tag row matrix coefs => Sys2Proof.Machine.execFormatLoadRows h tag row matrix coefs s
  | .formatLoadCommit h tag => Sys2Proof.Machine.execFormatLoadCommit h tag s
  | .formatLoadClear h tag => Sys2Proof.Machine.execFormatLoadClear h tag s
  | .formatRead h query part => Sys2Proof.Machine.execFormatRead h query part s
  | .eqLoadHead h bank channel count delay trim => Sys2Proof.Machine.execEqLoadHead h bank channel count delay trim s
  | .eqLoadSections h bank channel first sections => Sys2Proof.Machine.execEqLoadSections h bank channel first sections s
  | .eqRead h query part => Sys2Proof.Machine.execEqRead h query part s
  | .eqSelect h bank => Sys2Proof.Machine.execEqSelect h bank s
  | .fade h target duration => Sys2Proof.Machine.execFade h target duration s
  | .mute h on => Sys2Proof.Machine.execMute h on s
  | .meterRead h part => Sys2Proof.Machine.execMeterRead h part s
  | .alarmSet h cls record => Sys2Proof.Machine.execAlarmSet h cls record s
  | .alarmRead h id part => Sys2Proof.Machine.execAlarmRead h id part s
  | .alarmAck h ids => Sys2Proof.Machine.execAlarmAck h ids s
  | .alarmTest h ids => Sys2Proof.Machine.execAlarmTest h ids s
  | .cueLoad h cue => Sys2Proof.Machine.execCueLoad h cue s
  | .cueDelete h which => Sys2Proof.Machine.execCueDelete h which s
  | .cueRead h query part => Sys2Proof.Machine.execCueRead h query part s
  | .cueFire h id => Sys2Proof.Machine.execCueFire h id s
  | .cueRearm h which => Sys2Proof.Machine.execCueRearm h which s
  | .contactSet h line owner mode threshold => Sys2Proof.Machine.execContactSet h line owner mode threshold s
  | .contactDrive h line drive => Sys2Proof.Machine.execContactDrive h line drive s
  | .noticeDone h tag => Sys2Proof.Machine.execNoticeDone h tag s
  | .noticeRead h query part => Sys2Proof.Machine.execNoticeRead h query part s
  | .noticeRouteScreen h route => Sys2Proof.Machine.execNoticeRouteScreen h route s
  | .noticeRoutePort h port count weight interval => Sys2Proof.Machine.execNoticeRoutePort h port count weight interval s
  | .unknownRequest h kind response => Sys2Proof.Machine.execUnknownRequest h kind response s
  | .powerLoss => Sys2Proof.Machine.execPowerLoss s

end Sys2Proof.Machine
end

