-- ==== Sys2Proof/Safety.lean ====
section
/-! DEFINITION. What holds of the part in every run, in the terms that statements use: the conditions that the spec says
always hold of a port, an arbiter, an engine, a notice unit, a meter and alarm unit, the contact lines, the shared budgets
and the cue pool; and when a request reaches its owning block. -/

namespace Sys2Proof.Machine

/-! ### Conditions that always hold -/

/-- A program port: the buffer holds 0 to 32 frames, and none while the port is not LOCKED; the fast-drop window is closed
while the port is not LOCKED (section 1.4, R10). -/
def Port.Safe (x : Port) : Prop :=
  x.buffer.length ≤ 32 ∧ (x.state ≠ .locked → x.buffer = [] ∧ x.window = none)

/-- An arbiter: its response queue holds 0 to 4 responses (R168). -/
def Arbiter.Safe (a : Arbiter) : Prop := a.queue.length ≤ 4

/-- A filter engine: the fader level always lies within 0 to 16,384, and so does a fade's target (R95, R94). -/
def Engine.Safe (e : Engine) : Prop := e.fader ≤ 16384 ∧ ∀ f, e.fade = some f → f.target ≤ 16384

/-- A notice stack under a ceiling, top entry first: the ceiling is the top entry's level, which is 0, 1 or 2 and lower than
the ceiling it saved; under the empty stack the ceiling is open (R162, R164). -/
def StackSafe : Nat → List StackEntry → Prop
  | ceiling, [] => ceiling = 4
  | ceiling, e :: rest => ceiling = e.level ∧ e.level ≤ 2 ∧ e.level < e.saved ∧ StackSafe e.saved rest

/-- A notice unit: its stack stands under its ceiling and holds at most three entries (R162). -/
def NoticeUnit.Safe (u : NoticeUnit) : Prop := StackSafe u.ceiling u.stack ∧ u.stack.length ≤ 3

/-- A meter and alarm unit: the mark queue holds at most 8 entries, and the alarm summary is the lowest level among the
standing instances (R128, R129). -/
def Monitor.Safe (m : Monitor) : Prop := m.marks.length ≤ 8 ∧ m.summary = m.formSummary

/-- A contact line in ALARM mode has no pulse end, and is CLOSED exactly when its owner screen's alarm summary exists with a
level at or below the line's threshold level (R158). -/
def State.LineSafe (s : State) (x : Line) : Prop :=
  x.mode = .alarm → x.pulseEnd = none ∧
    x.closed = (match x.owner with
      | some n => summaryCloses s.screens[n].mon.summary x.threshold
      | none => false)

/-- The pool records that hold the cues of all screens (R133). -/
def State.cueRecords (s : State) : List Nat := (List.finRange 8).flatMap fun n => s.screens[n].cues.map (·.record)

/-- A cue list in list order, with no two cues of the same id (R134). -/
def CueListSafe (l : List Cue) : Prop := l.Pairwise (fun a b => a.before b = true) ∧ (l.map (·.id)).Nodup

/-- Every program port is as `Port.Safe` says. -/
def State.PortsSafe (s : State) : Prop := ∀ p : Fin 12, s.ports[p].Safe

/-- Every arbiter is as `Arbiter.Safe` says. -/
def State.ArbitersSafe (s : State) : Prop := ∀ p : Fin 12, s.arbiters[p].Safe

/-- Every engine is as `Engine.Safe` says. -/
def State.EnginesSafe (s : State) : Prop := ∀ n : Fin 8, s.screens[n].eng.Safe

/-- The section total and the pool total are within their limits (R86, R87). -/
def State.BudgetSafe (s : State) : Prop := s.sectionTotal ≤ 2048 ∧ s.poolTotal ≤ 65536

/-- Every notice unit is as `NoticeUnit.Safe` says. -/
def State.NoticesSafe (s : State) : Prop := ∀ n : Fin 8, s.screens[n].notice.Safe

/-- Every meter and alarm unit is as `Monitor.Safe` says, and every contact line follows its owner's summary. -/
def State.AlarmsSafe (s : State) : Prop := (∀ n : Fin 8, s.screens[n].mon.Safe) ∧ ∀ l : Fin 16, s.LineSafe s.lines[l]

/-- Every cue list is in list order, and every one of the 512 cue records is either on the free stack or in exactly one
screen's cue list (R133, R134). -/
def State.CuesSafe (s : State) : Prop :=
  (∀ n : Fin 8, CueListSafe s.screens[n].cues) ∧ (s.freeStack ++ s.cueRecords).Perm (List.range 512)

/-! ### A request that reaches its owning block -/

/-- A request of a kind is taken and passes every check before its owning block, in a part that has power (R176 to R178). -/
def State.admits (s : State) (h : ReqHead) (k : ReqKind) : Prop :=
  s.powered = true ∧ s.canTake h.port = true ∧ s.refusedBefore h k = none

/-- The state with the DONE response and its reply items placed (R180). -/
def State.answered (t : State) (h : ReqHead) (k : ReqKind) (items : List Word) : State :=
  t.place h k.number (doneWord :: items) (k == .partReset)

/-- The state with a refusal's response placed (R180). -/
def State.refusedWith (t : State) (h : ReqHead) (k : ReqKind) (code : RefusalCode) : State :=
  t.place h k.number (t.refusalPayload h k code) false

/-! ### The checks before an owning block, as statements use them -/

/-- A request whose message the service unit takes: the part has power, no reset is pending, and the response queue of its port
has room (R176). -/
def State.takes (s : State) (h : ReqHead) : Prop :=
  s.powered = true ∧ s.resetPending = none ∧ s.arbiters[h.port].queue.length ≤ 3

/-- A lock held by a node other than the source node of a request (R178). -/
def heldByAnother (holder source : Byte) : Prop := holder ≠ 0 ∧ holder ≠ source

/-- A command's next state. -/
def State.goes (s : State) (c : Instr) (t : State) : Prop := exec c s = .next t

/-- A request of class SCREEN: with screen number 15 it is refused with REFUSED-RANGE; with the number of a screen whose lock
another node holds, with REFUSED-LOCKED; otherwise `effect` holds for that screen (R177, R178). -/
def UnderScreenLock (c : Instr) (h : ReqHead) (k : ReqKind) (s : State) (effect : Fin 8 → Prop) : Prop :=
  s.takes h → (h.screen = 15 → s.goes c (s.refusedWith h k .range)) ∧
    ∀ n : Fin 8, h.screen.toNat = n.val →
      (heldByAnother s.screenLocks[n] h.source → s.goes c (s.refusedWith h k .locked)) ∧
      (¬heldByAnother s.screenLocks[n] h.source → effect n)

/-- A request of class PART or RESET in its form with screen number 15: with the number of a screen it is refused with
REFUSED-RANGE; with 15 while another node holds the part lock, with REFUSED-LOCKED; otherwise `effect` holds (R177, R178). -/
def UnderPartLock (c : Instr) (h : ReqHead) (k : ReqKind) (s : State) (effect : Prop) : Prop :=
  s.takes h → (h.screen.toNat < 8 → s.goes c (s.refusedWith h k .range)) ∧
    (h.screen = 15 → (heldByAnother s.partLock h.source → s.goes c (s.refusedWith h k .locked)) ∧
      (¬heldByAnother s.partLock h.source → effect))

end Sys2Proof.Machine
end

