-- ==== Sys2Proof/Certificates/Slice0/Obligations.lean ====
section
/-! DEFINITION. The statements for the provers. The vocabulary comes first: which requests reach their owning block, the
power-on values written out, and the frames ("nothing else changes"). Each statement's docstring names the rules it rests on. -/

namespace Sys2Proof.Machine

/-! ### Vocabulary: requests -/

/-- The head and the kind of a command that is a request of the catalogue (section 9.6). -/
def requestOf : Instr → Option (ReqHead × ReqKind)
  | .partStatus h _ => some (h, .partStatus)
  | .partReset h => some (h, .partReset)
  | .lockTake h => some (h, .lockTake)
  | .lockFree h _ => some (h, .lockFree)
  | .portRead h _ _ => some (h, .portRead)
  | .portSet h _ _ _ _ _ _ => some (h, .portSet)
  | .portClear h _ => some (h, .portClear)
  | .portRestart h _ => some (h, .portRestart)
  | .screenRead h _ => some (h, .screenRead)
  | .screenSet h _ => some (h, .screenSet)
  | .screenState h _ => some (h, .screenState)
  | .screenSource h _ => some (h, .screenSource)
  | .screenReset h => some (h, .screenReset)
  | .formatLoadBegin h _ => some (h, .formatLoadBegin)
  | .formatLoadRows h _ _ _ _ => some (h, .formatLoadRows)
  | .formatLoadCommit h _ => some (h, .formatLoadCommit)
  | .formatLoadClear h _ => some (h, .formatLoadClear)
  | .formatRead h _ _ => some (h, .formatRead)
  | .eqLoadHead h _ _ _ _ _ => some (h, .eqLoadHead)
  | .eqLoadSections h _ _ _ _ => some (h, .eqLoadSections)
  | .eqRead h _ _ => some (h, .eqRead)
  | .eqSelect h _ => some (h, .eqSelect)
  | .fade h _ _ => some (h, .fade)
  | .mute h _ => some (h, .mute)
  | .meterRead h _ => some (h, .meterRead)
  | .alarmSet h _ _ => some (h, .alarmSet)
  | .alarmRead h _ _ => some (h, .alarmRead)
  | .alarmAck h _ => some (h, .alarmAck)
  | .alarmTest h _ => some (h, .alarmTest)
  | .cueLoad h _ => some (h, .cueLoad)
  | .cueDelete h _ => some (h, .cueDelete)
  | .cueRead h _ _ => some (h, .cueRead)
  | .cueFire h _ => some (h, .cueFire)
  | .cueRearm h _ => some (h, .cueRearm)
  | .contactSet h _ _ _ _ => some (h, .contactSet)
  | .contactDrive h _ _ => some (h, .contactDrive)
  | .noticeDone h _ => some (h, .noticeDone)
  | .noticeRead h _ _ => some (h, .noticeRead)
  | .noticeRouteScreen h _ => some (h, .noticeRouteScreen)
  | .noticeRoutePort h _ _ _ _ => some (h, .noticeRoutePort)
  | .powerOn _ | .partResetTakesEffect | .programFrameArrival _ _ | .masterFrame | .arbiterGrant _ | .messageSent _
  | .noticeChoice _ | .rackFrameArrival _ _ | .masterBlockBoundary | .crossfadeEnd _ | .qualifyWindowExpiry _ _
  | .releaseComplete _ _ | .holdoverExpiry _ | .fastDropWindowClose _ | .exchangeTimeout _ | .serviceTimeout _
  | .responseExpiry _ | .arbiterReload _ | .quietIntervalEnd _ | .contactPulseEnd _ | .unknownRequest _ _ _
  | .powerLoss => none

/-- The words of an optional quantity: 0 and the quantity, or 1 (R193). -/
def optionWords : Option Nat → List Word
  | some n => [0, wordOf n]
  | none => [1]

/-- The word of a bank, A 0 and B 1 (R84, R193). -/
def bankWord : Bank → Word
  | .a => 0
  | .b => 1

/-- The word of a matrix, A 0 and B 1 (R68, R193). -/
def matrixWord : Matrix → Word
  | .a => 0
  | .b => 1

/-- The word of a source role, PRIMARY 0 and ALTERNATE 1 (R51, R193). -/
def sourceWord : SourceRole → Word
  | .primary => 0
  | .alternate => 1

/-- The word of an on-or-off value or of a flag named set first: 0 for on or set, 1 for off or clear (R193, assumption log 13). -/
def onOffWord (on : Bool) : Word := if on then 0 else 1

/-- The word of a flag that its rule names clear first: 0 for clear, 1 for set (R193, assumption log 13). -/
def setWord (set : Bool) : Word := if set then 1 else 0

/-- The words of a drive, with the duration of a pulse (R143, R193). -/
def driveOperand : Drive → List Word
  | .closeLine => [0]
  | .openLine => [1]
  | .pulse ms => [2, wordOf ms]

/-- The words of a cue action: its kind in the order of R135, then its operands (R135, R149, R193). -/
def actionOperand : CueAction → List Word
  | .contact line d => 0 :: wordOf line :: driveOperand d
  | .fade target duration => [1, wordOf target, wordOf duration]
  | .mute on => [2, onOffWord on]
  | .eqBank k => [3, bankWord k]
  | .format tag => 4 :: optionWords tag
  | .source role => [5, sourceWord role]
  | .quiet d => 6 :: longWords (BitVec.ofNat 32 d)
  | .mark level => [7, wordOf level]

/-- The number of a speaker role, in the order of the Speaker Roles table (R193, assumption log 15). -/
def roleWord : Role → Word
  | .l => 0 | .c => 1 | .r => 2 | .lfe => 3 | .ls => 4 | .rs => 5 | .lss => 6 | .rss => 7 | .lrs => 8 | .rrs => 9 | .bs => 10
  | .ltop => 11 | .rtop => 12 | .hi => 13 | .vn => 14 | .aux => 15

/-- The number of an alarm class, in the order of section 6.2 (R193). -/
def classWord : AlarmClass → Word
  | .clip => 0 | .over => 1 | .silent => 2 | .source => 3 | .slip => 4 | .amp => 5 | .link => 6 | .cue => 7 | .format => 8

/-- The words of a SCREEN-SET item: the number of its row in R60's table, then its value (R60, R193). A role or none is an optional
item (assumption log 15). -/
def itemOperand : ScreenItem → List Word
  | .primary p => 0 :: optionWords p
  | .alternate p => 1 :: optionWords p
  | .follow on => [2, onOffWord on]
  | .fallback tag => [3, wordOf tag]
  | .override tag => 4 :: optionWords tag
  | .mapEntry channel e => [5, wordOf channel] ++ (match e.role with | some role => [0, roleWord role] | none => [1]) ++
      [onOffWord e.expected] ++ optionWords e.partner ++ [wordOf e.gain]
  | .foldEnable on => [6, onOffWord on]
  | .meterSpeed speed => [7, wordOf speed]
  | .window ms => [8, wordOf ms]

/-- A value in two words, as 32 bits in two's complement, high word first (R193). -/
def twoWords (x : Int) : List Word := longWords (BitVec.ofInt 32 x)

/-- The words of a section's five coefficients (R103, R193). -/
def sectionOperand (x : Coefs) : List Word :=
  twoWords x.b0 ++ twoWords x.b1 ++ twoWords x.b2 ++ twoWords x.a1 ++ twoWords x.a2

/-- The words of a list of cue ids, or of the word all (R151, R153, R193). -/
def selectionOperand : CueSelection → List Word
  | .ids l => 0 :: l.map wordOf
  | .all => [1]

/-- The payload words of a request: its operands in the order that the catalogue lists them (section 9.6, R179, R193), a reading
request ending in its part index (R181). EQ-READ on a screen begins with the number of its form (assumption log 28), CUE-READ as
R154 says. FORMAT-READ's row index and matrix are one optional item (assumption log 10). -/
def operandWords : Instr → List Word
  | .partStatus _ part | .screenRead _ part | .meterRead _ part => [wordOf part]
  | .partReset _ | .lockTake _ | .screenReset _ => []
  | .lockFree _ force => [setWord force]
  | .portRead _ port part => [wordOf port, wordOf part]
  | .portSet _ port enable holdover dropCount dropWindow dropEnable =>
    [wordOf port, onOffWord enable, wordOf holdover, wordOf dropCount, wordOf dropWindow, onOffWord dropEnable]
  | .portClear _ port | .portRestart _ port => [wordOf port]
  | .screenSet _ items => items.flatMap itemOperand
  | .screenState _ target => [match target with | .dark => 0 | .standby => 1 | .running => 2]
  | .screenSource _ role => [sourceWord role]
  | .formatLoadBegin _ x =>
    [wordOf x.tag, wordOf x.inputs, onOffWord x.steering.isSome, wordOf x.roles.length] ++ x.roles.map roleWord ++
      (match x.steering with
        | some y => [wordOf y.first, wordOf y.second, wordOf y.shift, wordOf y.slew]
        | none => [])
  | .formatLoadRows _ tag row matrix coefs => [wordOf tag, wordOf row, matrixWord matrix] ++ coefs.map (BitVec.ofInt 16)
  | .formatLoadCommit _ tag | .formatLoadClear _ tag => [wordOf tag]
  | .formatRead _ (.tag tag row) part =>
    wordOf tag :: (match row with | some (k, matrix) => [0, wordOf k, matrixWord matrix] | none => [1]) ++ [wordOf part]
  | .formatRead _ .screen part => [wordOf part]
  | .eqLoadHead _ bank channel count delay trim => [bankWord bank, wordOf channel, wordOf count, wordOf delay, wordOf trim]
  | .eqLoadSections _ bank channel first sections =>
    [bankWord bank, wordOf channel, wordOf first] ++ sections.flatMap sectionOperand
  | .eqRead _ .screen part => [0, wordOf part]
  | .eqRead _ (.channel bank channel first) part => [1, bankWord bank, wordOf channel, wordOf first, wordOf part]
  | .eqRead _ .part part => [wordOf part]
  | .eqSelect _ bank => [bankWord bank]
  | .fade _ target duration => [wordOf target, wordOf duration]
  | .mute _ on => [onOffWord on]
  | .alarmSet _ cls x =>
    [classWord cls, onOffWord x.enable, wordOf x.level] ++ twoWords x.threshold ++
      [wordOf x.count, wordOf x.window, wordOf x.release, onOffWord x.quiet]
  | .alarmRead _ id part => optionWords id ++ [wordOf part]
  | .alarmAck _ ids | .alarmTest _ ids => ids.map wordOf
  | .cueLoad _ x =>
    wordOf x.id :: longWords x.program ++ longWords x.trigger ++ actionOperand x.action ++ [onOffWord x.catchUp, setWord x.fireIfDue]
  | .cueDelete _ which | .cueRearm _ which => selectionOperand which
  | .cueRead _ .screen part => [0, wordOf part]
  | .cueRead _ (.cue id) part => [1, wordOf id, wordOf part]
  | .cueRead _ (.list first) part => [2, wordOf first, wordOf part]
  | .cueRead _ .part part => [wordOf part]
  | .cueFire _ id => [wordOf id]
  | .contactSet _ line owner mode threshold =>
    wordOf line :: optionWords owner ++ [(match mode with | .cue => 0 | .alarm => 1), wordOf threshold]
  | .contactDrive _ line d => wordOf line :: driveOperand d
  | .noticeDone _ tag => (match tag with | some w => [0, w] | none => [1])
  | .noticeRead _ .screen part => [wordOf part]
  | .noticeRead _ (.port port) part => [wordOf port, wordOf part]
  | .noticeRouteScreen _ route => (match route with
    | some x => [0, wordOf x.port, nodeWord x.node] ++
        (match x.share with | some (count, weight) => [0, wordOf count, wordOf weight] | none => [1])
    | none => [1])
  | .noticeRoutePort _ port count weight interval => [wordOf port, wordOf count, wordOf weight, wordOf interval]
  | .powerOn _ | .partResetTakesEffect | .programFrameArrival _ _ | .masterFrame | .arbiterGrant _ | .messageSent _
  | .noticeChoice _ | .rackFrameArrival _ _ | .masterBlockBoundary | .crossfadeEnd _ | .qualifyWindowExpiry _ _
  | .releaseComplete _ _ | .holdoverExpiry _ | .fastDropWindowClose _ | .exchangeTimeout _ | .serviceTimeout _
  | .responseExpiry _ | .arbiterReload _ | .quietIntervalEnd _ | .contactPulseEnd _ | .unknownRequest _ _ _
  | .powerLoss => []

/-- What a reading request answers: the part of its reply items that the part index names, with the state unchanged; a part
index at or above the number of parts is refused with REFUSED-RANGE (R181). -/
def ReadsPart (c : Instr) (h : ReqHead) (k : ReqKind) (part : Nat) (s : State) (items : List Word) : Prop :=
  let parts := max 1 ((items.length + 56) / 57)
  (part < parts →
    s.goes c (s.answered h k
      ((BitVec.ofNat 8 part ++ BitVec.ofNat 8 (parts - 1)) :: (items.drop (part * 57)).take 57))) ∧
  (parts ≤ part → s.goes c (s.refusedWith h k .range))

/-! ### Vocabulary: links -/

/-- A frame with normal sync and a good check that carries index `e` (R1, R30, R190). -/
def GoodFrame {n : Nat} (f : LinkFrame n) (e : Nat) : Prop :=
  headerSync f.header = 0xA7 ∧ frameCheck f = f.check ∧ headerIndex f.header = e

/-- A frame with normal sync and a bad check (R1, R30, R190). -/
def BadCheckFrame {n : Nat} (f : LinkFrame n) : Prop := headerSync f.header = 0xA7 ∧ frameCheck f ≠ f.check

/-- A frame with neither normal nor stop sync, or with stop sync and a bad check (R1, R190). -/
def MissFrame {n : Nat} (f : LinkFrame n) : Prop :=
  (headerSync f.header ≠ 0xA7 ∧ headerSync f.header ≠ 0x58) ∨ (headerSync f.header = 0x58 ∧ frameCheck f ≠ f.check)

/-- A frame with stop sync and a good check (R1, R190). -/
def StopFrame {n : Nat} (f : LinkFrame n) : Prop := headerSync f.header = 0x58 ∧ frameCheck f = f.check

/-- The capture record after an error is offered to it (R21). -/
def offered (x : Port) (kind : ErrorKind) (index : Option Nat) (counter : Long) : Option Capture :=
  match x.capture with
  | none => some { kind, index, counter, lastGood := x.lastGood, more := false }
  | some c => some { c with more := true }

/-- A counter of 16 bits that takes one more and stops at 65,535. -/
def oneMore (c : Nat) : Nat := min 65535 (c + 1)

/-- A port in state `st` with every run at 0, its buffer empty and both assemblers cleared; its settings, concealment register,
counters and records stand as they did (R7, R25). -/
def idlePort (st : PortState) (x : Port) : Port :=
  { x with state := st, goodRun := 0, missRun := 0, stopRun := 0, expected := none, window := none, holdoverLeft := 0
           buffer := [], started := false, lastFrame := none, attempt := none, base := none, badRun := 0
           lostRaised := false, assembly := none }

/-- What every exit from LOCKED to state `st` leaves of a port (R3, R5, R10, R11). -/
def outOfLock (st : PortState) (left : Nat) (x : Port) : Port :=
  { x with state := st, holdoverLeft := left, goodRun := 0, expected := none, window := none, buffer := [], started := false
           lastFrame := none, attempt := none, base := none }

/-- A port after a write to its elastic buffer: at 32 entries the oldest is dropped and one slip is counted; the write that brings 16
entries sets the started flag (R11, R12). -/
def buffered (slots : Slots) (x : Port) : Port :=
  { x with buffer := (if 32 ≤ x.buffer.length then x.buffer.tail else x.buffer) ++ [slots]
           started := x.started || decide (15 ≤ x.buffer.length)
           counters := { x.counters with slips := if 32 ≤ x.buffer.length then oneMore x.counters.slips else x.counters.slips } }

/-- The fast-drop window after a check error (R9). -/
def widened (x : Port) : DropWindow :=
  match x.window with
  | none => { count := 1, left := x.settings.dropWindow }
  | some w => { count := w.count + 1, left := w.left }

/-- The descriptor attempt after an arrival at expected index `e` that does not complete it: index 0 begins an attempt, and each
index up to 10 adds its byte, known or unknown (R14). -/
def notedByte (e : Nat) (byte : Option Byte) (x : Port) : Option (List (Option Byte)) :=
  if e = 0 then some [byte] else if e ≤ 10 then x.attempt.map fun l => l ++ [byte] else x.attempt

/-- A LOCKED port after a CHECK ERROR frame at expected index `e` that is no fast drop, but for its attempt (R3, R4, R9, R21). -/
def afterCheckError (e : Nat) (counter : Long) (x : Port) : Port :=
  buffered x.conceal { x with
    missRun := 0, stopRun := 0, expected := some ((e + 1) % 48)
    window := if x.settings.dropEnable then some (widened x) else none
    counters := { x.counters with checkErrors := oneMore x.counters.checkErrors }
    capture := offered x .check (some e) counter }

/-- A LOCKED port after a STOP frame at expected index `e` below the eighth in a row, but for its attempt (R3, R6). -/
def afterStop (e : Nat) (x : Port) : Port :=
  buffered (Vector.replicate 16 0) { x with missRun := 0, stopRun := x.stopRun + 1, expected := some ((e + 1) % 48) }

/-- A LOCKED port after a MISS or MISPLACED frame below the third in a row, captured at `index`, but for its attempt (R3, R21). -/
def afterMiss (index next : Nat) (counter : Long) (x : Port) : Port :=
  { x with missRun := x.missRun + 1, stopRun := 0, expected := some next, capture := offered x .sync (some index) counter }

/-- A frame whose service word a port takes: GOOD or STOP (R1, R17). -/
def CarriesWord (f : LinkFrame 16) (x : Port) : Prop :=
  (∃ e, GoodFrame f e ∧ (x.expected = some e ∨ (x.expected = none ∧ e ≤ 47))) ∨ StopFrame f

/-- `g` is the frame `f` with IDLE and any word in place of its service word. -/
def IdleTwin (f g : LinkFrame 16) : Prop :=
  headerSync g.header = headerSync f.header ∧ headerIndex g.header = headerIndex f.header ∧
  headerByte g.header = headerByte f.header ∧ headerCode g.header = .idle ∧ g.slots = f.slots ∧ frameCheck g = g.check

/-- A port whose message under assembly is discarded: counted, and offered to the capture record with kind SERVICE (R17, R18,
R19). -/
def discarded (index : Option Nat) (counter : Long) (x : Port) : Port :=
  { x with assembly := none, counters := { x.counters with discarded := oneMore x.counters.discarded }
           capture := offered x .service index counter }

/-- A frame that abandons a message under assembly, with the frame index of the discard (R17, R21): a MISS at the expected index, a
MISPLACED frame at its own (assumption log 20), a CHECK ERROR at the expected index, or a free value where there is none (assumption
log 6). -/
def Abandons (f : LinkFrame 16) (free : Option Nat) (x : Port) (index : Option Nat) : Prop :=
  (MissFrame f ∧ index = x.expected) ∨ (BadCheckFrame f ∧ index = if x.expected = none then free else x.expected) ∨
  ∃ k, GoodFrame f k ∧ ((∃ e, x.expected = some e ∧ k ≠ e ∧ index = some k) ∨ (x.expected = none ∧ 48 ≤ k ∧ index = none))

/-- What an announcement that a port entered LOST does to a screen: failover becomes due where the screen is RUNNING, its active
source is PRIMARY, that port is its primary and an alternate is configured (R49, R50). -/
def afterLost (p : Fin 12) (x : Screen) : Screen :=
  if x.ctx.state = .running ∧ x.ctx.active = .primary ∧ x.ctx.primary = some p ∧ x.ctx.alternate.isSome = true then
    { x with ctx := { x.ctx with failoverDue := true } }
  else x

/-- What an announcement that a port entered LOCKED does to a screen: failover becomes due where the screen is RUNNING, its active
source is PRIMARY, that port is its alternate and its primary port is LOST (R49, R50). -/
def afterLocked (ports : Vector Port 12) (p : Fin 12) (x : Screen) : Screen :=
  if x.ctx.state = .running ∧ x.ctx.active = .primary ∧ x.ctx.alternate = some p ∧
      (∃ q, x.ctx.primary = some q ∧ ports[q].state = .lost) then
    { x with ctx := { x.ctx with failoverDue := true } }
  else x

/-- A screen port as an entry to HUNT leaves it (R32). -/
def huntLink (x : ScreenPort) : ScreenPort :=
  { x with link := .hunt, goodRun := 0, missRun := 0, expected := none, attempt := none, timer := 0, echo := false
           lastToggle := false, identSeen := false, rackId := none, channelCount := none
           stored := Vector.replicate 16 .absent }

/-! ### Vocabulary: alarms -/

/-- An instance stands: RAISED or RELEASING (section 6.4). -/
def Stands (m : Monitor) (id : Fin 54) : Prop := m.alarms[id].state = .raised ∨ m.alarms[id].state = .releasing

/-- The summary is the lowest level among the standing instances, and absent where none stands (R129). -/
def SummaryRight (m : Monitor) : Prop :=
  ((∀ id : Fin 54, ¬Stands m id) → m.summary = none) ∧
  ∀ lv, (∃ id : Fin 54, Stands m id ∧ (m.record id).level = lv) →
    (∀ id : Fin 54, Stands m id → lv ≤ (m.record id).level) → m.summary = some lv

/-- An instance is suppressed by what the unit was last handed: an open quiet interval for a quiet-suppressible class; and for
SILENT, of alarm ids 32 to 47, a mute, a fader level of 0 or a folded channel (R120, R121). -/
def SuppressedBy (m : Monitor) (id : Fin 54) : Prop :=
  (m.handedQuiet = true ∧ (m.record id).quiet = true) ∨
  ∃ c : Fin 16, id.val = 32 + c.val ∧ (m.handedMute = true ∨ m.handedFader = 0 ∨ m.handedFolded[c] = true)

/-- `t` is `s` but for screen `n`'s meter and alarm unit and its contact lines. The unit is `m` with every instance that satisfies
`P` returned to CLEAR and the summary formed again, and every ALARM-mode line owned by the screen is set from that summary. The
pending set, the table, the meters and the mark queue stand as in `m` (R122, R129, R158). -/
def ClearsAlarms (n : Fin 8) (P : Fin 54 → Prop) (m : Monitor) (s t : State) : Prop :=
  t = { s.modMon n fun _ => t.screens[n].mon with lines := t.lines } ∧
  t.screens[n].mon = { m with alarms := t.screens[n].mon.alarms, summary := t.screens[n].mon.summary } ∧
  (∀ id : Fin 54, (P id → t.screens[n].mon.alarms[id] = { state := .clear, count := 0, left := 0, clean := 0, hit := false }) ∧
    (¬P id → t.screens[n].mon.alarms[id] = m.alarms[id])) ∧
  SummaryRight t.screens[n].mon ∧
  ∀ l : Fin 16, (s.lines[l].mode = .alarm → s.lines[l].owner = some n →
      t.lines[l] = { s.lines[l] with closed := summaryCloses t.screens[n].mon.summary s.lines[l].threshold }) ∧
    (¬(s.lines[l].mode = .alarm ∧ s.lines[l].owner = some n) → t.lines[l] = s.lines[l])

/-- An instance in CLEAR with nothing counted. -/
def clearInstance : Alarm := { state := .clear, count := 0, left := 0, clean := 0, hit := false }

/-- An instance in RAISED, with its block hit (R116). -/
def raisedInstance (hit : Bool) : Alarm := { state := .raised, count := 0, left := 0, clean := 0, hit := hit }

/-- An instance takes occurrences: its class is enabled and evaluated, and the instance is not suppressed (R110, R119 to R121). -/
def Watched (m : Monitor) (id : Fin 54) : Prop :=
  (m.record id).enable = true ∧ (m.evaluated = .dark → id.val = 50 ∨ id.val = 51) ∧
  (m.evaluated = .standby → ¬(32 ≤ id.val ∧ id.val ≤ 47)) ∧ ¬SuppressedBy m id

/-- What an instance becomes at an occurrence it takes (R116). -/
def AtOccurrence (r : ClassRecord) (a b : Alarm) : Prop :=
  (a.state = .clear →
    (r.count ≤ 1 → b = raisedInstance true) ∧
    (2 ≤ r.count → b = { state := .qualifying, count := 1, left := r.window, clean := 0, hit := true })) ∧
  (a.state = .qualifying →
    (r.count ≤ a.count + 1 → b = raisedInstance true) ∧
    (a.count + 2 ≤ r.count → b = { a with count := a.count + 1, hit := true })) ∧
  (a.state = .raised → b = { a with hit := true }) ∧
  (a.state = .releasing → b = raisedInstance true)

/-- What an instance that has taken the ending block's occurrence, if any, becomes at its boundary step (R117). -/
def AtBoundaryStep (r : ClassRecord) (a b : Alarm) : Prop :=
  (a.state = .clear → b = { a with hit := false }) ∧
  (a.state = .qualifying →
    (a.left ≤ 1 → b = clearInstance) ∧ (2 ≤ a.left → b = { a with left := a.left - 1, hit := false })) ∧
  (a.state = .raised →
    (a.hit = true → b = { a with hit := false }) ∧
    (a.hit = false → r.release = 0 → b = clearInstance) ∧
    (a.hit = false → 1 ≤ r.release → b = { state := .releasing, count := 0, left := 0, clean := 0, hit := false })) ∧
  (a.state = .releasing → a.hit = false →
    (r.release ≤ a.clean + 1 → b = clearInstance) ∧ (a.clean + 2 ≤ r.release → b = { a with clean := a.clean + 1 }))

/-- The unit goes from `m` to `m'` by one occurrence offered to an instance: ignored unless the instance takes it; a pending flag is
set at an entry into RAISED from CLEAR or QUALIFYING; and the summary is formed again (R110, R116, R118, R123, R129). An instance
that a timed command has ended ahead of the boundary takes it as it stood before (assumption log 2). -/
def OccurrenceOf (id : Fin 54) (m m' : Monitor) : Prop :=
  let a := m.alarms[id].resumed
  m' = { m with alarms := m'.alarms, pending := m'.pending, summary := m'.summary } ∧ SummaryRight m' ∧
  (∀ i : Fin 54, i ≠ id → m'.alarms[i] = m.alarms[i] ∧ m'.pending[i] = m.pending[i]) ∧
  (¬Watched m id → m'.alarms[id] = m.alarms[id] ∧ m'.pending[id] = m.pending[id]) ∧
  (Watched m id → AtOccurrence (m.record id) a m'.alarms[id] ∧
    (m'.pending[id] = none ↔ m.pending[id] = none ∧
      ¬(m'.alarms[id].state = .raised ∧ (a.state = .clear ∨ a.state = .qualifying))) ∧
    (∀ x, m.pending[id] = some x → m'.pending[id] = some x) ∧
    (m.pending[id] = none → m'.pending[id] ≠ some true))

/-- As things stand, the condition of an instance's class may hold at the coming boundary: OVER and SILENT by the level that the
boundary will form, SOURCE by a primary port that is LOST or about to be, AMP by a mapped channel that will not be presented OK,
LINK by a port that is not UP, FORMAT by the want of a valid tag before the fallback. CLIP, SLIP and CUE have none (R53, R55,
R109, R111 to R113). -/
def MayOccur (s : State) (n : Fin 8) (id : Fin 54) : Prop :=
  let x := s.screens[n]
  let level (c : Fin 16) : Int :=
    x.mon.meters[c].level + (x.mon.meters[c].running - x.mon.meters[c].level) / 2 ^ x.ctx.meterSpeed
  let ok (k : Fin 16) : Prop := x.link.link = .up ∧ x.link.stored[k] = .ok ∧ ∃ m, x.link.channelCount = some m ∧ k.val < m
  let valid (tag : Option Nat) : Prop := ∃ k, tag = some k ∧ s.validTag k = true
  (∃ c : Fin 16, id.val = 16 + c.val ∧ ∃ v, (x.mon.record id).threshold = some v ∧ v ≤ level c) ∨
  (∃ c : Fin 16, id.val = 32 + c.val ∧ x.ctx.map[c].expected = true ∧ ∃ v, (x.mon.record id).threshold = some v ∧ level c < v) ∨
  (id.val = 48 ∧ ∃ q, x.ctx.primary = some q ∧
    (s.ports[q].state = .lost ∨ (s.ports[q].state = .holdover ∧ s.ports[q].holdoverLeft ≤ 1))) ∨
  (id.val = 50 ∧ ∃ k : Fin 16, x.ctx.map[k].role.isSome = true ∧ ¬ok k) ∨ (id.val = 51 ∧ x.link.link ≠ .up) ∨
  (id.val = 53 ∧ ¬valid x.ctx.override ∧ ¬valid x.ctx.descTag)

/-- The unit goes from `m` to `m'` by the return to CLEAR of every instance that satisfies `P`, and the summary is formed again. -/
def Cleared (P : Fin 54 → Prop) (m m' : Monitor) : Prop :=
  m' = { m with alarms := m'.alarms, summary := m'.summary } ∧ SummaryRight m' ∧
  ∀ id : Fin 54, (P id → m'.alarms[id] = clearInstance) ∧ (¬P id → m'.alarms[id] = m.alarms[id])

/-- The alarm ids of SILENT (section 6.2). -/
def IsSilent (id : Fin 54) : Prop := 32 ≤ id.val ∧ id.val ≤ 47

/-- From `s` to `t`, the ALARM-mode lines whose owner satisfies `P` are set from their owner's summary in `t`, and every other line
stays (R158). -/
def LinesFollow (P : Fin 8 → Prop) (s t : State) : Prop :=
  ∀ l : Fin 16,
    (∀ n, s.lines[l].mode = .alarm → s.lines[l].owner = some n → P n →
      t.lines[l] = { s.lines[l] with closed := summaryCloses t.screens[n].mon.summary s.lines[l].threshold }) ∧
    ((∀ n, s.lines[l].mode = .alarm → s.lines[l].owner = some n → ¬P n) → t.lines[l] = s.lines[l])

/-! ### Vocabulary: what the screens hear from a program port -/

/-- `t` is `s` after port `p` has announced its entry to BREAK: every RUNNING screen with follow-source on that has the port in use
enters STANDBY, which ends its quiet interval, clears failover due and returns its SILENT instances to CLEAR; nothing else changes
(R8, R47 to R49, R120, R148). The port in use until a boundary is the model's choice (assumption log 8). -/
def HearsBreak (p : Fin 12) (s t : State) : Prop :=
  let stops (n : Fin 8) : Prop :=
    s.screens[n].ctx.activePort = some p ∧ s.screens[n].ctx.follow = true ∧ s.screens[n].ctx.state = .running
  t = { s with screens := t.screens, lines := t.lines } ∧ LinesFollow stops s t ∧
  ∀ n : Fin 8, let x := s.screens[n]
    (¬stops n → t.screens[n] = x) ∧
    (stops n → Cleared IsSilent x.mon t.screens[n].mon ∧
      t.screens[n] = { x with quiet := none, ctx := { x.ctx with state := .standby, failoverDue := false }
                              mon := t.screens[n].mon })

/-- `t` is `s` after a slip event of port `p`: the unit of every screen that has the port in use takes one occurrence of SLIP;
nothing else changes (R8, R49, R113). -/
def HearsSlip (p : Fin 12) (s t : State) : Prop :=
  let hears (n : Fin 8) : Prop := s.screens[n].ctx.activePort = some p
  t = { s with screens := t.screens, lines := t.lines } ∧ LinesFollow hears s t ∧
  ∀ n : Fin 8, let x := s.screens[n]
    (¬hears n → t.screens[n] = x) ∧
    (hears n → OccurrenceOf 49 x.mon t.screens[n].mon ∧ t.screens[n] = { x with mon := t.screens[n].mon })

/-- A LOCKED port holds eleven of the twelve entries of a descriptor attempt, and a GOOD frame with index 11 and no service word
arrives that its buffer has room for (R14). -/
def LastByteArrives (f : LinkFrame 16) (bytes : List (Option Byte)) (x : Port) : Prop :=
  x.state = .locked ∧ x.expected = some 11 ∧ GoodFrame f 11 ∧ headerCode f.header = .idle ∧ x.buffer.length ≤ 31 ∧
  bytes.length = 11 ∧ x.attempt = some bytes

/-- The port after that frame, with the attempt completed and nothing yet said of its outcome (R3, R14). -/
def afterLastByte (f : LinkFrame 16) (x : Port) : Port :=
  { x with missRun := 0, stopRun := 0, expected := some 12, conceal := f.slots, buffer := x.buffer ++ [f.slots]
           started := x.started || decide (15 ≤ x.buffer.length), attempt := none }

/-- That frame completes a good descriptor of port `p`, and screen `n` alone has the port in use (R14, R15). -/
def GoodDescriptor (p : Fin 12) (n : Fin 8) (f : LinkFrame 16) (u : Update) (s : State) : Prop :=
  (∃ bytes : List Byte, LastByteArrives f (bytes.map some) s.ports[p] ∧
    parseDescriptor (bytes ++ [headerByte f.header]) = some u) ∧
  ∀ m : Fin 8, s.screens[m].ctx.activePort = some p ↔ m = n

/-- A screen context after an update, but for its state: the program id, the position and the tag are taken, and the position-lost
flag is cleared (R54, R56, R59). -/
def withUpdate (u : Update) (c : Context) : Context :=
  { c with lastProgram := some u.program, lastPosition := some u.position, positionLost := false, descTag := some u.tag }

/-- A frame completes a bad descriptor at a port that stays LOCKED (R14): a last byte that leaves an unknown byte or a bad check;
a last byte that a CHECK ERROR, a STOP or a MISS frame leaves unknown; or a MISPLACED frame. No message is under assembly at a
frame that would abandon it, and the buffer has room. `i` is the frame index that the error is captured with, and `y` the port
with nothing yet said of the descriptor. -/
def BadAttempt (f : LinkFrame 16) (counter : Long) (x : Port) (i : Nat) (y : Port) : Prop :=
  (∃ bytes, LastByteArrives f bytes x ∧
    (∀ known : List Byte, bytes = known.map some → parseDescriptor (known ++ [headerByte f.header]) = none) ∧
    i = (bytes.findIdx? Option.isNone).getD 11 ∧ y = afterLastByte f x) ∨
  (∃ bytes, x.state = .locked ∧ x.expected = some 11 ∧ x.attempt = some bytes ∧ bytes.length = 11 ∧ x.buffer.length ≤ 31 ∧
    i = (bytes.findIdx? Option.isNone).getD 11 ∧
    ((BadCheckFrame f ∧ x.assembly = none ∧ (x.settings.dropEnable = true → (widened x).count < x.settings.dropCount) ∧
        y = { afterCheckError 11 counter x with attempt := none }) ∨
      (StopFrame f ∧ headerCode f.header = .idle ∧ x.stopRun ≤ 6 ∧ y = { afterStop 11 x with attempt := none }) ∨
      (MissFrame f ∧ x.assembly = none ∧ x.missRun ≤ 1 ∧ y = { afterMiss 11 12 counter x with attempt := none }))) ∨
  ∃ (e k : Nat) (bytes : List (Option Byte)), x.state = .locked ∧ x.expected = some e ∧ e ≤ 11 ∧ GoodFrame f k ∧ k ≠ e ∧
    x.assembly = none ∧ x.missRun ≤ 1 ∧ (if e = 0 then bytes = [] else x.attempt = some bytes) ∧
    i = (bytes.findIdx? Option.isNone).getD e ∧
    y = { afterMiss k ((k + 1) % 48) counter x with attempt := none }

/-- A screen context at the entry to RUNNING (R46, R50). -/
def entersRunning (s : State) (c : Context) : Context :=
  { c with state := .running, lastPosition := none, positionLost := false
           failoverDue := c.failoverDue || (decide (c.active = .primary) && c.alternate.isSome &&
             decide (∃ p, c.primary = some p ∧ s.ports[p].state = .lost)) }

/-- Screen `n` leaves RUNNING for STANDBY (R47, R48, R120, R148). -/
def Stopped (n : Fin 8) (s t : State) : Prop :=
  ClearsAlarms n IsSilent s.screens[n].mon (s.modScreen n fun x =>
    { x with quiet := none, ctx := { x.ctx with state := .standby, failoverDue := false } }) t

/-! ### Vocabulary: the active source at a boundary -/

/-- The settling of a screen's active source by R52, from context `c` to `m`; `lost` and `locked` say whether its primary port is
LOST and its alternate LOCKED, and `switched` whether the screen switched. -/
def SourceSettled (lost locked : Prop) (c m : Context) (switched : Bool) : Prop :=
  let portOf (role : SourceRole) : Option (Fin 12) := match role with | .primary => c.primary | .alternate => c.alternate
  let sourceOf (role : SourceRole) : ActiveSource := match role with | .primary => .primary | .alternate => .alternate
  let fails := c.state = .running ∧ c.active = .primary ∧ lost ∧ locked
  (c.state = .dark → m = { c with requested := none, active := .none } ∧ switched = false) ∧
  (c.state ≠ .dark →
    (∀ role, c.requested = some role →
      ((portOf role).isSome = true ∧ c.active ≠ sourceOf role →
        m = { c with requested := none, active := sourceOf role, activePort := portOf role } ∧ switched = true) ∧
      (¬((portOf role).isSome = true ∧ c.active ≠ sourceOf role) → m = { c with requested := none } ∧ switched = false)) ∧
    (c.requested = none → c.failoverDue = true →
      (fails → m = { c with failoverDue := false, active := .alternate, activePort := c.alternate, failovers := oneMore c.failovers } ∧
        switched = true) ∧
      (¬fails → m = { c with failoverDue := false } ∧ switched = false)) ∧
    (c.requested = none → c.failoverDue = false → m = c ∧ switched = false))

/-- The selection made again by R53, from context `c` to `m`, after SCREEN-SET changed or removed the port of the active source, or
configured one where the source was NONE: as on entry from DARK (R46), and no failover is counted. -/
def SourceReselected (c m : Context) (switched : Bool) : Prop :=
  let changed := (c.active = .primary ∧ c.activePort ≠ c.primary) ∨ (c.active = .alternate ∧ c.activePort ≠ c.alternate) ∨
    (c.active = .none ∧ (c.primary.isSome = true ∨ c.alternate.isSome = true))
  (c.state ≠ .dark ∧ changed → switched = true ∧
    (∀ p, c.primary = some p → m = { c with active := .primary, activePort := some p }) ∧
    (c.primary = none →
      (∀ p, c.alternate = some p → m = { c with active := .alternate, activePort := some p }) ∧
      (c.alternate = none → m = { c with active := .none, activePort := none }))) ∧
  (¬(c.state ≠ .dark ∧ changed) → m = c ∧ switched = false)

/-- From `s` to `t`, a boundary settles the active source of screen `n` (R49, R50, R52, R53). A primary port that the boundary
itself takes from HOLDOVER to LOST makes failover due first (assumption log 5). `m` is the context with the source settled, and
`switched` whether the screen switched. That a role switched to by a request or a failover stays, where its port has been changed
since the last boundary, is assumption log 8's. -/
def BoundarySource (s t : State) (n : Fin 8) (m : Context) (switched : Bool) : Prop :=
  let c := s.screens[n].ctx
  let told := c.state = .running ∧ c.active = .primary ∧ c.alternate.isSome = true ∧
    ∃ q, c.primary = some q ∧ s.ports[q].state = .holdover ∧ s.ports[q].holdoverLeft ≤ 1
  ∃ (heard first : Context) (a b : Bool),
    (told → heard = { c with failoverDue := true }) ∧ (¬told → heard = c) ∧
    SourceSettled (∃ q, c.primary = some q ∧ t.ports[q].state = .lost) (∃ q, c.alternate = some q ∧ t.ports[q].state = .locked)
      heard first a ∧
    SourceReselected first m b ∧ switched = (a || b)

/-! ### Vocabulary: the signal path -/

/-- `saturate` (00_scope.md, Arithmetic Terms). -/
def clampSample (x : Int) : Int := max (-8388608) (min 8388607 x)

/-- `round-n` (00_scope.md, Arithmetic Terms). -/
def roundOff (n : Nat) (x : Int) : Int := (x + 2 ^ (n - 1)) / 2 ^ n

/-- `|x|` of a sample, the magnitude of -8,388,608 being 8,388,607 (00_scope.md, Arithmetic Terms). -/
def sampleMagnitude (x : Int) : Int := min 8388607 x.natAbs

/-- `y` is `sum` rounded by `n` bits and clamped to the sample range, marked where the clamp changed it. -/
def RoundedClamped (n : Nat) (sum : Int) (y : Marked) : Prop :=
  y.value = clampSample (roundOff n sum) ∧ (y.clipped = true ↔ y.value ≠ roundOff n sum)

/-- The sixteen inputs of a screen's decode: the slots that the reader of the port in use produces in this frame, or zeros (R12,
R66). -/
def decodeInputs (s : State) (n : Fin 8) : Vector Int 16 :=
  let zeros : Slots := Vector.replicate 16 0
  let slots : Slots := match s.screens[n].ctx.activePort with
    | none => zeros
    | some p => if s.ports[p].state = .locked ∧ s.ports[p].started = true then
        (match s.ports[p].buffer with
          | oldest :: _ => oldest
          | [] => s.ports[p].lastFrame.getD zeros)
      else zeros
  Vector.ofFn fun j => slots[j].toInt

/-- An output channel's role signal before saturation: the rounded sum, over the columns below the input channel count, of the
coefficients of the row that produces the channel's role, blended in a steered format; zero where no row does (R74, R78). -/
def roleSum (d : Decoder) (x : Vector Int 16) (k : Fin 16) : Int :=
  match d.map[k].role.bind fun role => d.format.rows.findIdx? fun row => row.role == role with
  | none => 0
  | some i =>
    let plain : Vector Int 16 := ((d.format.rows[i]?).map fun row => row.a).getD (Vector.replicate 16 0)
    let coefs := if d.format.steering.isSome then (d.blended[i]?).getD plain else plain
    roundOff 14 (((List.finRange 16).filter fun j => j.val < d.format.inputs).map fun j => coefs[j] * x[j]).sum

/-- An output channel's mapped signal (R74, R78). -/
def mappedSample (d : Decoder) (x : Vector Int 16) (k : Fin 16) : Int := clampSample (roleSum d x k)

/-- An output channel's own mapped signal with the rounded contributions of the channels folded onto it, in full (R80). -/
def foldedMix (d : Decoder) (x : Vector Int 16) (k : Fin 16) : Int :=
  mappedSample d x k + (((List.finRange 16).filter fun f => d.folds[f] == .folded k).map fun f =>
    roundOff 14 (mappedSample d x f * d.map[f].gain)).sum

/-- An output channel's input to the filter engine: zero where the channel is folded or dropped (R80). -/
def channelSample (d : Decoder) (x : Vector Int 16) (k : Fin 16) : Int :=
  if d.folds[k] = .normal then clampSample (foldedMix d x k) else 0

/-- A section's rounded sum (R90). -/
def sectionSum (c : Section) (x : Int) : Int :=
  roundOff 20 (c.coefs.b0 * x + c.coefs.b1 * c.x1 + c.coefs.b2 * c.x2 - c.coefs.a1 * c.y1 - c.coefs.a2 * c.y2)

/-- The output of a cascade of sections (R90). -/
def cascadeOutput (x : Int) : List Section → Int
  | [] => x
  | c :: rest => cascadeOutput (clampSample (sectionSum c x)) rest

/-- The sections of a cascade after an input (R90). -/
def cascadeAfter (x : Int) : List Section → List Section
  | [] => []
  | c :: rest =>
    { c with x1 := x, x2 := c.x1, y1 := clampSample (sectionSum c x), y2 := c.y1 } ::
      cascadeAfter (clampSample (sectionSum c x)) rest

/-- A section of a cascade clips (R90, R93). -/
def CascadeClips (x : Int) : List Section → Prop
  | [] => False
  | c :: rest => clampSample (sectionSum c x) ≠ sectionSum c x ∨ CascadeClips (clampSample (sectionSum c x)) rest

/-- The input of a bank's path: the channel's input of as many frames before as the record's delay (R89). -/
def delayedSample (e : Engine) (k : Bank) (c : Fin 16) (x : Int) : Int :=
  if (e.bank k)[c].delay = 0 then x else (e.lines[c][(e.bank k)[c].delay - 1]?).getD 0

/-- A bank's path output before saturation: the cascade's output times the gain, rounded by 14 bits (R88 to R91). -/
def pathSum (e : Engine) (k : Bank) (c : Fin 16) (x : Int) : Int :=
  roundOff 14 (cascadeOutput (delayedSample e k c x) (e.bank k)[c].sections * roundOff 14 ((e.bank k)[c].trim * e.fader))

/-- A clip is marked on a bank's path (R90, R91, R93). -/
def PathClips (e : Engine) (k : Bank) (c : Fin 16) (x : Int) : Prop :=
  CascadeClips (delayedSample e k c x) (e.bank k)[c].sections ∨ clampSample (pathSum e k c x) ≠ pathSum e k c x

/-! ### Vocabulary: what a request or a cue does at its owning block -/

/-- The bank with every section state at zero (R85). -/
def restedBank (v : Vector Chain 16) : Vector Chain 16 :=
  Vector.ofFn fun c =>
    { v[c] with sections := v[c].sections.map fun x => { x with x1 := 0, x2 := 0, y1 := 0, y2 := 0 } }

/-- The bank that a switch request is compared with: the incoming bank of a running crossfade, otherwise the active bank (R97). -/
def selectedBank (e : Engine) : Bank :=
  match e.crossfade with
  | some x => x.incoming
  | none => e.active

/-- A FADE with target T and duration D taken for screen `n` (R94), with the suppression that a level of 0 begins (R120). -/
def FadeEffect (n : Fin 8) (T D : Nat) (s u : State) : Prop :=
  let e := s.screens[n].eng
  let m := s.screens[n].mon
  let target := min T 16384
  let duration := min D 60000
  (duration = 0 → 1 ≤ target → u = s.modEng n fun e => { e with fader := target, fade := none }) ∧
  (duration = 0 → target = 0 →
    ClearsAlarms n (SuppressedBy { m with handedFader := 0 }) { m with handedFader := 0 }
      (s.modEng n fun e => { e with fader := 0, fade := none }) u) ∧
  (1 ≤ duration → target = e.fader → u = s.modEng n fun e => { e with fade := none }) ∧
  (1 ≤ duration → target ≠ e.fader →
    let step := ((target - e.fader) + (e.fader - target) + duration - 1) / duration
    u = s.modEng n fun e => { e with fade := some { target := target, step := step } })

/-- A MUTE taken for screen `n` (R92, R105), with the suppression that a mute begins (R120). -/
def MuteEffect (n : Fin 8) (on : Bool) (s u : State) : Prop :=
  let m := s.screens[n].mon
  (on = false → u = s.modEng n fun e => { e with mute := false }) ∧
  (on = true → ClearsAlarms n (SuppressedBy { m with handedMute := true }) { m with handedMute := true }
    (s.modEng n fun e => { e with mute := true }) u)

/-- A switch request naming bank `k` taken for screen `n` (R97). -/
def SelectEffect (n : Fin 8) (k : Bank) (s u : State) : Prop :=
  u = s.modEng n fun e => { e with pendingSwitch := if k = selectedBank e then none else some k }

/-- A source request naming a role taken for screen `n` (R51). -/
def SourceEffect (n : Fin 8) (role : SourceRole) (s u : State) : Prop :=
  u = s.modCtx n fun c => { c with requested := some role, failoverDue := false }

/-- A drive of a contact line (R157). -/
def DriveEffect (l : Fin 16) (d : Drive) (s u : State) : Prop :=
  u = s.modLine l fun x =>
    match d with
    | .closeLine => { x with closed := true, pulseEnd := none }
    | .openLine => { x with closed := false, pulseEnd := none }
    | .pulse ms => { x with closed := true, pulseEnd := some (s.blockCounter + BitVec.ofNat 32 ms) }

/-- A QUIET of duration `d` applied for screen `n` (R147), with the suppression that an interval's opening begins (R121). -/
def QuietEffect (n : Fin 8) (d : Nat) (s u : State) : Prop :=
  let m := s.screens[n].mon
  let opened := s.setQuiet n (some (s.blockCounter + BitVec.ofNat 32 d))
  (d = 0 → u = s.setQuiet n none) ∧
  (1 ≤ d → s.screens[n].quiet.isSome = true → u = opened) ∧
  (1 ≤ d → s.screens[n].quiet = none →
    ClearsAlarms n (SuppressedBy { m with handedQuiet := true }) { m with handedQuiet := true } opened u)

/-- A MARK pushed for screen `n` (R128); marks of level 3 that reach the head of the queue leave it (R161). -/
def MarkEffect (n : Fin 8) (cue level : Nat) (s u : State) : Prop :=
  u = s.modMon n fun m =>
    { m with marks := ((if m.marks.length < 8 then m.marks else m.marks.tail) ++ [Mark.mk cue level]).dropWhile fun x => x.level == 3
             markOverflow := if m.marks.length < 8 then m.markOverflow else oneMore m.markOverflow }

/-- The conditions under which a cue's action is DECLINED (R142). -/
def Declines (s : State) (n : Fin 8) : CueAction → Prop
  | .contact line _ => ∀ l : Fin 16, l.val = line → s.lines[l].owner ≠ some n ∨ s.lines[l].mode ≠ .cue
  | .format (some tag) => s.validTag tag = false
  | .source .primary => s.screens[n].ctx.primary = none
  | .source .alternate => s.screens[n].ctx.alternate = none
  | .quiet _ => s.screens[n].ctx.state ≠ .running
  | .format none | .fade _ _ | .mute _ | .eqBank _ | .mark _ => False

/-- A cue's action applied for screen `n` by the cue with the given id (R143 to R147). -/
def ActionEffect (n : Fin 8) (id : Nat) (a : CueAction) (s u : State) : Prop :=
  match a with
  | .contact line d => ∀ l : Fin 16, l.val = line → DriveEffect l d s u
  | .fade t d => FadeEffect n t d s u
  | .mute on => MuteEffect n on s u
  | .eqBank k => SelectEffect n k s u
  | .format tag => u = s.modCtx n fun c => { c with override := tag }
  | .source role => SourceEffect n role s u
  | .quiet d => QuietEffect n d s u
  | .mark level => MarkEffect n id level s u

/-! ### Vocabulary: what a position update does -/

/-- Cue `k` of screen `n` fires (R142 to R147). -/
def FiresCue (n : Fin 8) (k : Cue) (s v : State) : Prop :=
  let fired (outcome : CueOutcome) (l : List Cue) : List Cue :=
    l.map fun c => if c.id = k.id then { c with state := .fired, outcome := some outcome, loadDue := false } else c
  (Declines s n k.action → v = s.modCues n (fired .declined)) ∧
  (¬Declines s n k.action → ∃ u, ActionEffect n k.id k.action s u ∧ v = u.modCues n (fired .applied))

/-- Cue `k` of screen `n` takes a state with no outcome. -/
def settlesCue (n : Fin 8) (k : Cue) (st : CueState) (s : State) : State :=
  s.modCues n fun l => l.map fun c => if c.id = k.id then { c with state := st, outcome := none } else c

/-- Cue `k` of screen `n` becomes MISSED, and the unit takes one occurrence of CUE (R139, R113). -/
def MissesCue (n : Fin 8) (k : Cue) (s v : State) : Prop :=
  v = { (settlesCue n k .missed s).modMon n fun _ => v.screens[n].mon with lines := v.lines } ∧
  OccurrenceOf 52 s.screens[n].mon v.screens[n].mon ∧ LinesFollow (fun m => m = n) s v

/-- A pass through cues of screen `n`, in list order: each fires, becomes MISSED, becomes PASSED or is left as it stands, as `fate`
says of it (R138 to R141). -/
def CuePass (n : Fin 8) (fate : Cue → CueFate) : List Cue → State → State → Prop
  | [], s, t => t = s
  | k :: rest, s, t => ∃ v,
    (match fate k with
      | .fire => FiresCue n k s v
      | .miss => MissesCue n k s v
      | .pass => v = settlesCue n k .passed s
      | .leave => v = s) ∧ CuePass n fate rest v t

/-- A cue is eligible at an update (R137). -/
def Eligible (u : Update) (k : Cue) : Prop := k.program = 0 ∨ k.program = u.program

/-- What a STEP does with a cue (R138). -/
def AtStep (u : Update) (k : Cue) (f : CueFate) : Prop :=
  let due := Eligible u k ∧ k.state = .armed ∧ (k.loadDue = true ∨ k.trigger.toNat ≤ u.position.toNat)
  (due → f = .fire) ∧ (¬due → f = .leave)

/-- What a FORWARD JUMP or a NEW PROGRAM does with a cue, under a catch-up window (R139). -/
def AtJump (window : Nat) (u : Update) (k : Cue) (f : CueFate) : Prop :=
  let armed := Eligible u k ∧ k.state = .armed
  let behind := k.trigger.toNat ≤ u.position.toNat
  let late := u.position.toNat - k.trigger.toNat
  (¬armed → f = .leave) ∧ (armed → k.loadDue = true → f = .fire) ∧
  (armed → k.loadDue = false → (¬behind → f = .leave) ∧ (behind → k.catchUp = false → f = .pass) ∧
    (behind → k.catchUp = true → (late ≤ window → f = .fire) ∧ (window < late → f = .miss)))

/-- A cue after the re-arm pass of a BACKWARD JUMP (R140). -/
def Rearmed (u : Update) (k k' : Cue) : Prop :=
  let ahead := Eligible u k ∧ u.position.toNat < k.trigger.toNat ∧ k.state ≠ .armed
  (ahead → k' = { k with state := .armed, outcome := none }) ∧ (¬ahead → k' = k)

/-- The load-due mark of a cue found eligible is cleared (R141). -/
def MarkCleared (u : Update) (k k' : Cue) : Prop :=
  (Eligible u k → k' = { k with loadDue := false }) ∧ (¬Eligible u k → k' = k)

/-- A list of cues becomes another, cue by cue. -/
def Cuewise (P : Cue → Cue → Prop) (l l' : List Cue) : Prop :=
  l'.length = l.length ∧ ∀ (i : Nat) (k k' : Cue), l[i]? = some k → l'[i]? = some k' → P k k'

/-- An update handled for screen `n`, which is RUNNING (R56, R57, R59, R138 to R141): the classification chooses the passes, then the
load-due marks are cleared, and the screen takes program id, position and tag. -/
def HandledUpdate (n : Fin 8) (u : Update) (s t : State) : Prop :=
  let c := s.screens[n].ctx
  let l := s.screens[n].cues
  let newProgram := c.lastPosition = none ∨ c.lastProgram ≠ some u.program
  ∃ (fate : Cue → CueFate) (first : State) (passed : State) (marked : List Cue),
    (∀ q, ¬newProgram → c.lastPosition = some q →
      (u.position.toNat = q.toNat + 1 → (∀ k ∈ l, AtStep u k (fate k)) ∧ first = s) ∧
      (q.toNat + 1 < u.position.toNat → (∀ k ∈ l, AtJump c.window u k (fate k)) ∧ first = s) ∧
      (u.position.toNat ≤ q.toNat → ∃ l', Cuewise (Rearmed u) l l' ∧ (∀ k ∈ l', AtStep u k (fate k)) ∧
        first = s.modCues n fun _ => l')) ∧
    (newProgram → (∀ k ∈ l, AtJump c.window u k (fate k)) ∧ first = s) ∧
    CuePass n fate first.screens[n].cues first passed ∧ Cuewise (MarkCleared u) passed.screens[n].cues marked ∧
    t = (passed.modCues n fun _ => marked).modCtx n (withUpdate u)

/-- A position update that reaches screen `n` from its port in use (R48, R54, R56): a DARK screen takes none; with follow-source
on, PLAY starts a STANDBY screen and its absence stops a RUNNING one, before the update is taken; STANDBY hands it to no one. -/
def TakesUpdate (n : Fin 8) (u : Update) (s t : State) : Prop :=
  let c := s.screens[n].ctx
  (c.state = .dark → t = s) ∧
  (c.state = .standby → ¬(c.follow = true ∧ u.play = true) → t = s.modCtx n (withUpdate u)) ∧
  (c.state = .standby → c.follow = true → u.play = true → HandledUpdate n u (s.modCtx n (entersRunning s)) t) ∧
  (c.state = .running → c.follow = true → u.play = false → ∃ v, Stopped n s v ∧ t = v.modCtx n (withUpdate u)) ∧
  (c.state = .running → ¬(c.follow = true ∧ u.play = false) → HandledUpdate n u s t)

/-! ### Vocabulary: requests' operands -/

/-- The checks of a SCREEN-SET item (R60). -/
def ItemInRange (s : State) : ScreenItem → Prop
  | .primary p | .alternate p => ∀ k, p = some k → k ≤ 11
  | .fallback tag => 1 ≤ tag ∧ tag ≤ 6
  | .override tag => ∀ k, tag = some k → s.validTag k = true
  | .mapEntry channel e => channel ≤ 15 ∧ ∀ k, e.partner = some k → k ≤ 15 ∧ k ≠ channel
  | .follow _ | .foldEnable _ | .meterSpeed _ | .window _ => True

/-- The source port of a role after a SCREEN-SET: the one its item carries, or the one configured before. -/
def portAfter (pick : ScreenItem → Option (Option Nat)) (items : List ScreenItem) (old : Option (Fin 12)) : Option Nat :=
  match items.findSome? pick with
  | some p => p
  | none => old.map (·.val)

/-- Picks the primary source port of an item. -/
def pickPrimary : ScreenItem → Option (Option Nat)
  | .primary p => some p
  | _ => none

/-- Picks the alternate source port of an item. -/
def pickAlternate : ScreenItem → Option (Option Nat)
  | .alternate p => some p
  | _ => none

/-- Two items set the same thing: the same item, and for speaker map items the same output channel (R60). -/
def SameItem (x y : ScreenItem) : Prop :=
  match x, y with
  | .primary _, .primary _ | .alternate _, .alternate _ | .follow _, .follow _ | .fallback _, .fallback _
  | .override _, .override _ | .foldEnable _, .foldEnable _ | .meterSpeed _, .meterSpeed _ | .window _, .window _ => True
  | .mapEntry a _, .mapEntry b _ => a = b
  | _, _ => False

/-- The steering operands of a FORMAT-LOAD BEGIN in range (R67). -/
def SteeringInRange (inputs : Nat) (x : SteeringOperand) : Prop :=
  x.first ≠ x.second ∧ x.first < inputs ∧ x.second < inputs ∧ 4 ≤ x.shift ∧ x.shift ≤ 12 ∧ 1 ≤ x.slew ∧ x.slew ≤ 64

/-- The header operands of a FORMAT-LOAD BEGIN in range (R67). -/
def HeaderInRange (x : FormatHeader) : Prop :=
  1 ≤ x.inputs ∧ x.inputs ≤ 16 ∧ 1 ≤ x.roles.length ∧ x.roles.length ≤ 16 ∧ x.roles.Nodup ∧
  ∀ st, x.steering = some st → SteeringInRange x.inputs st

/-- A screen bars a load into a bank (R101). -/
def LoadBarred (x : Screen) (k : Bank) : Prop :=
  (x.eng.active = k ∧ x.ctx.state ≠ .dark) ∨ x.eng.crossfade ≠ none ∨ x.eng.pendingSwitch = some k

/-- A cue action's operands in range (R149). -/
def ActionInRange : CueAction → Prop
  | .contact line (.pulse ms) => line ≤ 15 ∧ 1 ≤ ms ∧ ms ≤ 10000
  | .contact line _ => line ≤ 15
  | .format (some tag) => 1 ≤ tag ∧ tag ≤ 31
  | .quiet d => d ≤ 3600000
  | .mark level => level ≤ 3
  | .format none | .fade _ _ | .mute _ | .eqBank _ | .source _ => True

/-- The action that a cue stores: a FADE's target and duration clamped, any other action as carried (R149). -/
def clampedAction (a : CueAction) : CueAction :=
  match a with
  | .fade t d => .fade (min t 16384) (min d 60000)
  | a => a

/-- A cue is already due at its load (R150). -/
def AlreadyDue (x : Screen) (program trigger : Long) : Prop :=
  x.ctx.state = .running ∧ ∃ n p, x.ctx.lastProgram = some n ∧ x.ctx.lastPosition = some p ∧
    (program = 0 ∨ program = n) ∧ trigger.toNat ≤ p.toNat

/-- A cue selection in range (R151, R153). -/
def SelectionInRange : CueSelection → Prop
  | .ids l => 1 ≤ l.length ∧ l.length ≤ 16 ∧ 0 ∉ l
  | .all => True

/-- A cue selection names a cue id (R151, R153). -/
def Selects (which : CueSelection) (id : Nat) : Bool :=
  match which with
  | .ids l => decide (id ∈ l)
  | .all => true

/-! ### Vocabulary: notices and the return channel -/

/-- A requester waits at a port's arbiter (R169). -/
def Waits (s : State) (p : Fin 12) : Requester → Prop
  | .resp => s.arbiters[p].queue ≠ []
  | .screen n => ∃ r u, s.screens[n].ctx.route = some r ∧ r.port = p ∧ s.screens[n].notice.unsent = some u ∧ u.sending = false

/-- A requester's remaining guaranteed count (R169). -/
def remaining (a : Arbiter) : Requester → Nat
  | .resp => a.respLeft
  | .screen n => a.screenLeft[n]

/-- The cyclic order RESP, screen 0 to screen 7, begun after a requester, or with RESP where there is none (R169). -/
def cyclicAfter : Option Requester → List Requester
  | none => .resp :: (List.finRange 8).map .screen
  | some .resp => (List.finRange 8).map .screen ++ [.resp]
  | some (.screen n) =>
    ((List.finRange 8).filter fun k => n.val < k.val).map .screen ++
      .resp :: ((List.finRange 8).filter fun k => k.val ≤ n.val).map .screen

/-- `q` is the first requester of the cyclic order after `start` that satisfies `P`. -/
def FirstAfter (start : Option Requester) (P : Requester → Prop) (q : Requester) : Prop :=
  P q ∧ ∃ before rest, cyclicAfter start = before ++ q :: rest ∧ ∀ r ∈ before, ¬P r

/-- A grant to `q` at port `p`, with `f` what the grant does to the arbiter's counts: the message takes the channel, a response
leaves its queue, and a notice becomes the one being sent (R170, R172). -/
def Granted (p : Fin 12) (q : Requester) (f : Arbiter → Arbiter) (s t : State) : Prop :=
  match q with
  | .resp => ∀ r rest, s.arbiters[p].queue = r :: rest →
    t = s.modArb p fun a => { f a with queue := rest
                                       channel := some { owner := .resp, words := r.words, sent := 0, forReset := r.forReset } }
  | .screen n => ∀ u, s.screens[n].notice.unsent = some u →
    t = (s.modArb p fun a => { f a with
        channel := some { owner := .screen n, words := u.words, sent := 0, forReset := false } }).modNotice n
      fun v => { v with unsent := some { u with sending := true } }

/-- A candidate for notice of a screen, at its level (R161). -/
def Candidate (x : Screen) (src : NoticeSource) (lv : Nat) : Prop :=
  match src with
  | .alarm id => x.mon.pending[id] = some false ∧ (x.mon.record id).level = lv
  | .mark cue => ∃ rest, x.mon.marks = { cue, level := lv } :: rest

/-- A candidate that qualifies under the ceiling (R161). -/
def Qualifies (x : Screen) (src : NoticeSource) (lv : Nat) : Prop :=
  Candidate x src lv ∧ lv ≤ 2 ∧ lv < x.notice.ceiling

/-- One source goes before another of the same level: an alarm before a mark, and of alarms the lower id (R162). -/
def GoesBefore : NoticeSource → NoticeSource → Prop
  | .alarm a, .alarm b => a.val ≤ b.val
  | .alarm _, .mark _ => True
  | .mark _, .mark _ => True
  | .mark _, .alarm _ => False

/-- The candidate that a choice takes (R162). -/
def Chosen (x : Screen) (src : NoticeSource) (lv : Nat) : Prop :=
  Qualifies x src lv ∧ ∀ src' lv', Qualifies x src' lv' → lv < lv' ∨ (lv = lv' ∧ GoesBefore src src')

/-! ### Vocabulary: power-on values -/

/-- The values of a program port at power-on and at PART-RESET (R26). -/
def PortAtPowerOn (x : Port) : Prop :=
  x.state = .hunt ∧
  x.settings = { enable := true, holdover := 50, dropCount := 32, dropWindow := 10, dropEnable := true } ∧
  x.goodRun = 0 ∧ x.missRun = 0 ∧ x.stopRun = 0 ∧ x.expected = none ∧ x.buffer = [] ∧ x.started = false ∧
  (∀ k : Fin 16, x.conceal[k] = 0) ∧ x.attempt = none ∧ x.base = none ∧ x.badRun = 0 ∧ x.assembly = none ∧
  x.counters.checkErrors = 0 ∧ x.counters.slips = 0 ∧ x.counters.recoveries = 0 ∧ x.counters.fastDrops = 0 ∧
  x.counters.relocks = 0 ∧ x.counters.stopEntries = 0 ∧ x.counters.discarded = 0 ∧
  x.capture = none ∧ x.lastGood = none ∧ x.lastTimedOut = none

/-- The values of an arbiter at power-on and at PART-RESET (R174). -/
def ArbiterAtPowerOn (a : Arbiter) : Prop :=
  a.interval = 16 ∧ a.nextInterval = 16 ∧ a.remainder = 16 ∧ a.respCount = 4 ∧ a.respWeight = 2 ∧ a.respLeft = 4 ∧
  (∀ n : Fin 8, a.screenLeft[n] = 0) ∧ a.lastGranted = none ∧ a.holder = none ∧ a.burst = 0 ∧ a.channel = none ∧ a.queue = [] ∧
  a.requestsDiscarded = 0 ∧ a.responsesExpired = 0 ∧ a.messagesAbandoned = 0

/-- The values of a screen context at power-on and at PART-RESET (R63). -/
def ContextAtPowerOn (c : Context) : Prop :=
  c.state = .dark ∧ c.primary = none ∧ c.alternate = none ∧ c.follow = false ∧ c.fallback = 3 ∧ c.override = none ∧
  (∀ k : Fin 16, c.map[k] = { role := none, expected := false, partner := none, gain := 16384 }) ∧
  c.foldEnable = false ∧ c.meterSpeed = 4 ∧ c.window = 2000 ∧ c.route = none ∧ c.active = .none ∧
  c.requested = none ∧ c.failoverDue = false ∧ c.failovers = 0 ∧ c.descTag = none ∧ c.resolved = 3 ∧
  c.formatCond = true ∧ c.lastProgram = none ∧ c.lastPosition = none ∧ c.positionLost = false

/-- The values of a screen port at power-on and at PART-RESET (R43). -/
def ScreenPortAtPowerOn (x : ScreenPort) : Prop :=
  x.link = .hunt ∧ x.goodRun = 0 ∧ x.missRun = 0 ∧ x.expected = none ∧ x.attempt = none ∧ x.echo = false ∧
  x.lastToggle = false ∧ x.identSeen = false ∧ x.timer = 0 ∧ x.rackId = none ∧ x.channelCount = none ∧
  (∀ k : Fin 16, x.stored[k] = .absent ∧ x.presented[k] = .absent) ∧ x.linkDrops = 0 ∧ x.timeouts = 0

/-- The values of the decode unit for a screen at power-on and at PART-RESET (R83): the working format is tag 3 with reset
steering. -/
def DecoderAtPowerOn (d : Decoder) : Prop :=
  d.tag = 3 ∧ some d.format = builtIn 3 ∧ d.stale = false ∧ d.sumEnv = 0 ∧ d.diffEnv = 0 ∧ d.target = 0 ∧ d.weight = 0 ∧
  d.blended = d.format.rows.map (·.a) ∧
  (∀ k : Fin 16, d.map[k] = { role := none, expected := false, partner := none, gain := 16384 }) ∧ d.foldEnable = false ∧
  (∀ k : Fin 16, d.folds[k] = .normal) ∧ d.foldLosses = 0

/-- The values of the filter engine for a screen at power-on and at PART-RESET (R107). -/
def EngineAtPowerOn (e : Engine) : Prop :=
  (∀ (k : Bank) (c : Fin 16), (e.bank k)[c] = { sections := [], delay := 0, trim := 16384 }) ∧
  (∀ c : Fin 16, e.lines[c] = []) ∧ e.active = .a ∧ e.pendingSwitch = none ∧ e.crossfade = none ∧ e.fader = 0 ∧
  e.fade = none ∧ e.mute = false

/-- The alarm table at power-on and at PART-RESET (R114). -/
def tableDefaults : AlarmClass → ClassRecord
  | .clip => { enable := false, level := 2, threshold := none, count := 8, window := 1000, release := 2000, quiet := false }
  | .over => { enable := false, level := 2, threshold := some 7500000, count := 3, window := 10, release := 1000, quiet := false }
  | .silent => { enable := false, level := 1, threshold := some 2000, count := 3000, window := 3000, release := 0, quiet := true }
  | .source => { enable := false, level := 0, threshold := none, count := 1, window := 1, release := 0, quiet := false }
  | .slip => { enable := false, level := 2, threshold := none, count := 4, window := 1000, release := 5000, quiet := false }
  | .amp => { enable := false, level := 1, threshold := none, count := 1, window := 1, release := 0, quiet := false }
  | .link => { enable := false, level := 0, threshold := none, count := 500, window := 500, release := 0, quiet := false }
  | .cue => { enable := false, level := 2, threshold := none, count := 1, window := 1, release := 0, quiet := false }
  | .format => { enable := false, level := 3, threshold := none, count := 1, window := 1, release := 0, quiet := false }

/-- The values of the meter and alarm unit for a screen at power-on and at PART-RESET (R132), with the nine rows of its table
(R114). The evaluated classes are those of DARK. -/
def MonitorAtPowerOn (m : Monitor) : Prop :=
  (∀ c : Fin 16, m.meters[c] = { running := 0, peak := 0, level := 0 }) ∧
  (∀ id : Fin 54, m.alarms[id] = { state := .clear, count := 0, left := 0, clean := 0, hit := false } ∧
    m.pending[id] = none) ∧
  (∀ cls : AlarmClass, m.table[classIndex cls] = tableDefaults cls) ∧ m.evaluated = .dark ∧ m.marks = [] ∧
  m.markOverflow = 0 ∧ m.summary = none

/-- The values of every block at power-on and at PART-RESET. -/
def AtPowerOn (t : State) : Prop :=
  t.powered = true ∧ t.blockCounter = 0 ∧ (∀ p : Fin 12, PortAtPowerOn t.ports[p] ∧ ArbiterAtPowerOn t.arbiters[p]) ∧
  (∀ n : Fin 8, ContextAtPowerOn t.screens[n].ctx ∧ ScreenPortAtPowerOn t.screens[n].link ∧
    DecoderAtPowerOn t.screens[n].dec ∧ EngineAtPowerOn t.screens[n].eng ∧ MonitorAtPowerOn t.screens[n].mon ∧
    t.screens[n].cues = [] ∧ t.screens[n].quiet = none ∧
    t.screens[n].notice = { ceiling := 4, stack := [], unsent := none, sequence := 0, lost := 0 } ∧
    t.screenLocks[n] = 0) ∧
  (∀ i : Fin 16, t.loaded[i] = none) ∧ t.staging = none ∧ t.freeStack.Perm (List.range 512) ∧
  (∀ l : Fin 16, t.lines[l] = { owner := none, mode := .cue, threshold := 0, closed := false, pulseEnd := none }) ∧
  t.partLock = 0 ∧ t.resetPending = none

end Sys2Proof.Machine

open Sys2Proof Sys2Proof.Machine

/-! ### The step, power and reset -/

/-- A step takes the command at the front of the queue and runs exec on it with the queue's rest; on an empty queue the part
idles (assumption log 9). -/
def Obligations.StepRunsTheFrontCommand : Prop :=
  (∀ (c : Instr) (rest : List Instr) (s : State), step { s with pending := c :: rest } = exec c { s with pending := rest }) ∧
  ∀ s : State, s.pending = [] → step s = .next s

/-- Power-on latches the strap inputs, forms the node number 0xC0 plus the strap value, and gives every block its power-on
values; the queue of waiting commands is not touched (R175, R26, R43, R63, R83, R107, R114, R132, R155, R156, R174, R186). -/
def Obligations.PowerOnGivesEveryBlockItsValues : Prop :=
  ∀ (straps : BitVec 4) (s : State), ∃ t, exec (.powerOn straps) s = .next t ∧ AtPowerOn t ∧ t.straps = straps ∧
    t.node.toNat = 0xC0 + straps.toNat ∧ t.pending = s.pending

/-- A reset that is due takes effect: every block takes its power-on values, the block counter becomes 0, and the strap value and
the node number are kept; a reset that is not due has no effect (R188, R189, R175; assumption logs 2 and 4). -/
def Obligations.DuePartResetTakesEffect : Prop :=
  ∀ s : State, s.powered = true →
    (∀ r, s.resetPending = some r → r.due = true →
      ∃ t, exec .partResetTakesEffect s = .next t ∧ AtPowerOn t ∧ t.straps = s.straps ∧ t.node = s.node ∧
        t.frameIndex = s.frameIndex ∧ t.pending = s.pending) ∧
    ((s.resetPending = none ∨ ∃ r, s.resetPending = some r ∧ r.due = false) → exec .partResetTakesEffect s = .next s)

/-- Without power every relay is open and no port sends; until the next power-on no command changes the part (R156; the rest is
assumption log 3). -/
def Obligations.PowerLossOpensEveryRelay : Prop :=
  (∀ s : State, ∃ t, exec .powerLoss s = .next t ∧ t.powered = false ∧ (∀ l : Fin 16, t.relayClosed l = false) ∧
    (∀ p : Fin 12, t.ports[p].sent = none) ∧ (∀ n : Fin 8, t.screens[n].link.sent = none) ∧ t.pending = s.pending) ∧
  ∀ (c : Instr) (s : State), s.powered = false → (∀ straps, c ≠ .powerOn straps) → c ≠ .powerLoss → exec c s = .next s

/-- No command changes the queue of waiting commands: a command is taken from the queue by the step alone, and none puts another
there. -/
def Obligations.EveryCommandKeepsTheWaitingQueue : Prop :=
  ∀ (c : Instr) (s t : State), exec c s = .next t → t.pending = s.pending

/-! ### Taking requests and answering -/

/-- Every request of the catalogue is checked in the order of R176 to R178. With a reset pending, or a full response queue, it is
discarded and its arbiter counts one; then a screen number of 8 to 14 is refused with REFUSED-UNKNOWN, a number outside the
request's forms with REFUSED-RANGE, and a request against whose lock another node stands with REFUSED-LOCKED. Each refusal
changes nothing but the response queue. -/
def Obligations.RequestsAreCheckedBeforeTheirBlock : Prop :=
  ∀ (c : Instr) (h : ReqHead) (k : ReqKind) (s : State), requestOf c = some (h, k) → s.powered = true →
    ((s.resetPending ≠ none ∨ 4 ≤ s.arbiters[h.port].queue.length) →
      exec c s = .next (s.modArb h.port fun a => { a with requestsDiscarded := min 65535 (a.requestsDiscarded + 1) })) ∧
    (s.takes h →
      (8 ≤ h.screen.toNat → h.screen.toNat ≤ 14 → exec c s = .next (s.place h k.number [6] false)) ∧
      (((h.screen.toNat < 8 ∧ k.takesScreen = false) ∨ (h.screen = 15 ∧ k.takesPart = false)) →
        exec c s = .next (s.place h k.number [2] false)) ∧
      (∀ n : Fin 8, h.screen.toNat = n.val → k.takesScreen = true → k.cls = .screen →
        heldByAnother s.screenLocks[n] h.source → exec c s = .next (s.place h k.number [1] false)) ∧
      (((h.screen.toNat < 8 ∧ k.takesScreen = true) ∨ (h.screen = 15 ∧ k.takesPart = true)) →
        (k.cls = .part ∨ k.cls = .reset) → heldByAnother s.partLock h.source →
        exec c s = .next (s.place h k.number [1] false)))

/-- The response to a taken request stands at the tail of the response queue of the request's port, with the block counter at its
placing; it names the source node as destination and the part's node as source, echoes kind, screen number and tag with the
response mark set, carries the payload, and closes with the CRC-16 over the words before; nothing else changes (R180). -/
def Obligations.ResponseStandsAtTheTail : Prop :=
  ∀ (s : State) (h : ReqHead) (kind : BitVec 11) (payload : List Word) (r : Bool),
    let words := (h.source ++ s.node) :: ((1#1) ++ kind ++ h.screen) :: h.tag :: payload
    s.place h kind payload r =
      { s with arbiters := s.arbiters.set h.port.val
                { s.arbiters[h.port] with
                  queue := s.arbiters[h.port].queue ++
                    [{ words := words ++ [messageCheck words], placedAt := s.blockCounter, forReset := r }] } }

/-- The kind number of every request, in catalogue order from 1, NOTICE-ROUTE being 39 in both forms, and the response codes from
DONE 0 (R193). -/
def Obligations.KindsAndCodesAreNumbered : Prop :=
  (∀ k : ReqKind, k.number = (match k with
    | .partStatus => 1 | .partReset => 2 | .lockTake => 3 | .lockFree => 4
    | .portRead => 5 | .portSet => 6 | .portClear => 7 | .portRestart => 8
    | .screenRead => 9 | .screenSet => 10 | .screenState => 11 | .screenSource => 12 | .screenReset => 13
    | .formatLoadBegin => 14 | .formatLoadRows => 15 | .formatLoadCommit => 16 | .formatLoadClear => 17 | .formatRead => 18
    | .eqLoadHead => 19 | .eqLoadSections => 20 | .eqRead => 21 | .eqSelect => 22 | .fade => 23 | .mute => 24
    | .meterRead => 25 | .alarmSet => 26 | .alarmRead => 27 | .alarmAck => 28 | .alarmTest => 29
    | .cueLoad => 30 | .cueDelete => 31 | .cueRead => 32 | .cueFire => 33 | .cueRearm => 34 | .contactSet => 35 | .contactDrive => 36
    | .noticeDone => 37 | .noticeRead => 38 | .noticeRouteScreen => 39 | .noticeRoutePort => 39)) ∧
  ∀ (h : ReqHead) (s : State), doneWord = 0 ∧
    (∀ k items, s.answered h k items = s.place h k.number (0 :: items) (k == .partReset)) ∧
    ∀ code : RefusalCode, code.word = (match code with
      | .locked => 1 | .range => 2 | .full => 3 | .state => 4 | .budget => 5 | .unknown => 6)

/-- LOCK-TAKE (R182): a source node of 0 is refused with REFUSED-RANGE; a lock that is free or held by the source node is then
held by the source node, with DONE; a lock held by another node stays, with REFUSED-LOCKED. Every answer gives the holder after
the request. The screen number names the lock: a screen's, or with 15 the part lock. -/
def Obligations.LockTakeGivesTheLockOrItsHolder : Prop :=
  ∀ (h : ReqHead) (s : State), s.takes h →
    (∀ n : Fin 8, h.screen.toNat = n.val →
      (h.source = 0 → exec (.lockTake h) s = .next (s.place h 3 [2, nodeWord s.screenLocks[n]] false)) ∧
      (h.source ≠ 0 → heldByAnother s.screenLocks[n] h.source →
        exec (.lockTake h) s = .next (s.place h 3 [1, nodeWord s.screenLocks[n]] false)) ∧
      (h.source ≠ 0 → ¬heldByAnother s.screenLocks[n] h.source → exec (.lockTake h) s =
        .next ({ s with screenLocks := s.screenLocks.set n.val h.source }.place h 3 [0, nodeWord h.source] false))) ∧
    (h.screen = 15 →
      (h.source = 0 → exec (.lockTake h) s = .next (s.place h 3 [2, nodeWord s.partLock] false)) ∧
      (h.source ≠ 0 → heldByAnother s.partLock h.source →
        exec (.lockTake h) s = .next (s.place h 3 [1, nodeWord s.partLock] false)) ∧
      (h.source ≠ 0 → ¬heldByAnother s.partLock h.source → exec (.lockTake h) s =
        .next ({ s with partLock := h.source }.place h 3 [0, nodeWord h.source] false)))

/-- LOCK-FREE with the force flag clear (R183): a lock that is free or held by the source node is then free, with DONE; a lock
held by another node stays, with REFUSED-LOCKED. The reply gives the holder before the request, and nothing that the lock
governs changes. -/
def Obligations.LockFreeFreesTheHoldersOwnLock : Prop :=
  ∀ (h : ReqHead) (s : State), s.takes h →
    (∀ n : Fin 8, h.screen.toNat = n.val →
      (heldByAnother s.screenLocks[n] h.source →
        exec (.lockFree h false) s = .next (s.place h 4 [1, nodeWord s.screenLocks[n]] false)) ∧
      (¬heldByAnother s.screenLocks[n] h.source → exec (.lockFree h false) s =
        .next ({ s with screenLocks := s.screenLocks.set n.val 0 }.place h 4 [0, nodeWord s.screenLocks[n]] false))) ∧
    (h.screen = 15 →
      (heldByAnother s.partLock h.source →
        exec (.lockFree h false) s = .next (s.place h 4 [1, nodeWord s.partLock] false)) ∧
      (¬heldByAnother s.partLock h.source → exec (.lockFree h false) s =
        .next ({ s with partLock := 0 }.place h 4 [0, nodeWord s.partLock] false)))

/-- LOCK-FREE with the force flag set (R184): a lock held by another node is freed where its screen is DARK, or for the part lock
where all eight screens are, and refused with REFUSED-STATE otherwise; a free lock, and the holder's own, are freed in any
screen state. The reply gives the holder before the request. -/
def Obligations.ForcedLockFreeNeedsDark : Prop :=
  ∀ (h : ReqHead) (s : State), s.takes h →
    (∀ n : Fin 8, h.screen.toNat = n.val →
      (heldByAnother s.screenLocks[n] h.source → s.screens[n].ctx.state ≠ .dark →
        exec (.lockFree h true) s = .next (s.place h 4 [4, nodeWord s.screenLocks[n]] false)) ∧
      ((heldByAnother s.screenLocks[n] h.source → s.screens[n].ctx.state = .dark) → exec (.lockFree h true) s =
        .next ({ s with screenLocks := s.screenLocks.set n.val 0 }.place h 4 [0, nodeWord s.screenLocks[n]] false))) ∧
    (h.screen = 15 →
      (heldByAnother s.partLock h.source → (∃ n : Fin 8, s.screens[n].ctx.state ≠ .dark) →
        exec (.lockFree h true) s = .next (s.place h 4 [4, nodeWord s.partLock] false)) ∧
      ((heldByAnother s.partLock h.source → ∀ n : Fin 8, s.screens[n].ctx.state = .dark) → exec (.lockFree h true) s =
        .next ({ s with partLock := 0 }.place h 4 [0, nodeWord s.partLock] false)))

/-- PART-RESET and unknown requests. PART-RESET sets the reset pending, which records that the response it places at the tail of
its port's queue decides when the reset takes effect, and changes nothing else; it is answered DONE (R188). A request whose kind
or screen number names nothing of the catalogue is refused with REFUSED-UNKNOWN, its kind and screen number echoed, and nothing
else changes; with a reset pending or a full queue it is discarded (R177, R180, R176). -/
def Obligations.PartResetPendsAndUnknownRequestsAreRefused : Prop :=
  (∀ (h : ReqHead) (s : State), UnderPartLock (.partReset h) h .partReset s <|
    exec (.partReset h) s =
      .next ({ s with resetPending := some { port := h.port, due := false } }.place h 2 [0] true)) ∧
  ∀ (h : ReqHead) (kind : BitVec 11) (response : Bool) (s : State), s.powered = true →
    (s.takes h → exec (.unknownRequest h kind response) s = .next (s.place h kind [6] false)) ∧
    ((s.resetPending ≠ none ∨ 4 ≤ s.arbiters[h.port].queue.length) → exec (.unknownRequest h kind response) s =
      .next (s.modArb h.port fun a => { a with requestsDiscarded := min 65535 (a.requestsDiscarded + 1) }))

/-- The nine reading requests change nothing but the response queue, and answer the part of their reply that the part index names
(R181). A form that the screen number does not give, a port of 12 or above and an alarm id above 53 are refused with
REFUSED-RANGE. -/
def Obligations.ReadingRequestsAnswerOnePart : Prop :=
  ∀ (h : ReqHead) (part : Nat) (s : State), s.takes h →
    (h.screen = 15 → ReadsPart (.partStatus h part) h .partStatus part s s.statusItems) ∧
    (h.screen = 15 → ∀ p : Fin 12, ReadsPart (.portRead h p.val part) h .portRead part s (s.portItems p)) ∧
    (h.screen = 15 → ∀ port, 12 ≤ port → exec (.portRead h port part) s = .next (s.refusedWith h .portRead .range)) ∧
    (h.screen = 15 → ReadsPart (.eqRead h .part part) h .eqRead part s s.budgetItems) ∧
    (h.screen = 15 → ReadsPart (.cueRead h .part part) h .cueRead part s s.lineItems) ∧
    (h.screen = 15 → ∀ p : Fin 12, ReadsPart (.noticeRead h (.port p.val) part) h .noticeRead part s (s.arbiterItems p)) ∧
    (h.screen = 15 →
      exec (.formatRead h .screen part) s = .next (s.refusedWith h .formatRead .range) ∧
      exec (.eqRead h .screen part) s = .next (s.refusedWith h .eqRead .range) ∧
      (∀ k channel first, exec (.eqRead h (.channel k channel first) part) s = .next (s.refusedWith h .eqRead .range)) ∧
      exec (.cueRead h .screen part) s = .next (s.refusedWith h .cueRead .range) ∧
      (∀ id, exec (.cueRead h (.cue id) part) s = .next (s.refusedWith h .cueRead .range)) ∧
      (∀ first, exec (.cueRead h (.list first) part) s = .next (s.refusedWith h .cueRead .range)) ∧
      exec (.noticeRead h .screen part) s = .next (s.refusedWith h .noticeRead .range) ∧
      ∀ port, 12 ≤ port → exec (.noticeRead h (.port port) part) s = .next (s.refusedWith h .noticeRead .range)) ∧
    ∀ n : Fin 8, h.screen.toNat = n.val →
      (∀ tag row, exec (.formatRead h (.tag tag row) part) s = .next (s.refusedWith h .formatRead .range)) ∧
      exec (.eqRead h .part part) s = .next (s.refusedWith h .eqRead .range) ∧
      exec (.cueRead h .part part) s = .next (s.refusedWith h .cueRead .range) ∧
      (∀ port, exec (.noticeRead h (.port port) part) s = .next (s.refusedWith h .noticeRead .range)) ∧
      (∀ id, 54 ≤ id → exec (.alarmRead h (some id) part) s = .next (s.refusedWith h .alarmRead .range)) ∧
      ReadsPart (.screenRead h part) h .screenRead part s (s.screenItems n) ∧
      ReadsPart (.formatRead h .screen part) h .formatRead part s (s.decodeItems n) ∧
      ReadsPart (.eqRead h .screen part) h .eqRead part s (s.engineItems n) ∧
      ReadsPart (.meterRead h part) h .meterRead part s (s.meterItems n) ∧
      ReadsPart (.alarmRead h none part) h .alarmRead part s (s.alarmItems n) ∧
      (∀ id : Fin 54, ReadsPart (.alarmRead h (some id.val) part) h .alarmRead part s (s.oneAlarmItems n id)) ∧
      ReadsPart (.cueRead h .screen part) h .cueRead part s (s.cueItems n) ∧
      (∀ first, ReadsPart (.cueRead h (.list first) part) h .cueRead part s (s.cueListItems n first)) ∧
      ReadsPart (.noticeRead h .screen part) h .noticeRead part s (s.noticeItems n)

/-- The reading forms that name an entry: FORMAT-READ of a tag, EQ-READ of a channel and CUE-READ of a cue. Each answers a part of
its entry's items, or is refused: a tag outside 1 to 31, a channel above 15 or a cue id of 0 with REFUSED-RANGE; a cue id that is
not in the list, and a row of a tag that is not valid, with REFUSED-STATE; a row at or above the row count, and matrix B of an
unsteered tag, with REFUSED-RANGE (R82, R106, R154, R181). The header items of a format and the items of the staging record are
written out. The count word before the sections, the block counter as the last item of EQ-READ's channel form and CUE-READ's cue
form, and the staging record as one optional item are assumption log 10's; the words of a tag's validity (0 valid, 1 not) and of
the steered flag are assumption log 13's. -/
def Obligations.ReadingFormsThatNameAnEntry : Prop :=
  ∀ (h : ReqHead) (part : Nat) (s : State), s.takes h →
    (h.screen = 15 → ∀ tag row,
      ((tag = 0 ∨ 31 < tag) → exec (.formatRead h (.tag tag row) part) s = .next (s.refusedWith h .formatRead .range)) ∧
      (1 ≤ tag → tag ≤ 31 → s.format? tag = none → row.isSome = true →
        exec (.formatRead h (.tag tag row) part) s = .next (s.refusedWith h .formatRead .state)) ∧
      (1 ≤ tag → tag ≤ 31 → s.format? tag = none → row = none →
        ReadsPart (.formatRead h (.tag tag row) part) h .formatRead part s (1 :: s.stagingWords)) ∧
      ∀ x, 1 ≤ tag → tag ≤ 31 → s.format? tag = some x →
        (row = none →
          ReadsPart (.formatRead h (.tag tag row) part) h .formatRead part s (0 :: x.headerWords ++ s.stagingWords)) ∧
        ∀ k w, x.rows[k]? = some w →
          (row = some (k, .a) → ReadsPart (.formatRead h (.tag tag row) part) h .formatRead part s
            (w.a.toList.map coefWord ++ s.stagingWords)) ∧
          (row = some (k, .b) → x.steering.isSome = true → ReadsPart (.formatRead h (.tag tag row) part) h .formatRead part s
            (w.b.toList.map coefWord ++ s.stagingWords))) ∧
    (h.screen = 15 → ∀ tag x k matrix, 1 ≤ tag → tag ≤ 31 → s.format? tag = some x →
      (x.rows.length ≤ k ∨ (matrix = .b ∧ x.steering = none)) →
        exec (.formatRead h (.tag tag (some (k, matrix))) part) s = .next (s.refusedWith h .formatRead .range)) ∧
    (∀ x : FormatRecord, x.headerWords = [wordOf x.inputs, onOffWord x.steering.isSome, wordOf x.rows.length] ++
      x.rows.map (fun w => roleWord w.role) ++ (match x.steering with
        | some y => [wordOf y.first.val, wordOf y.second.val, wordOf y.shift, wordOf y.slew]
        | none => [])) ∧
    s.stagingWords = (match s.staging with
      | some g => [0, wordOf g.tag, nodeWord g.owner]
      | none => [1]) ∧
    ∀ n : Fin 8, h.screen.toNat = n.val →
      (∀ k channel first, 16 ≤ channel →
        exec (.eqRead h (.channel k channel first) part) s = .next (s.refusedWith h .eqRead .range)) ∧
      (∀ (k : Bank) (c : Fin 16) (first : Nat), let x := (s.screens[n].eng.bank k)[c]
        (1 ≤ x.sections.length → x.sections.length ≤ first →
          exec (.eqRead h (.channel k c.val first) part) s = .next (s.refusedWith h .eqRead .range)) ∧
        (first < x.sections.length ∨ x.sections = [] →
          ReadsPart (.eqRead h (.channel k c.val first) part) h .eqRead part s
            ([wordOf x.sections.length, wordOf x.delay, wordOf x.trim] ++
              listWords (fun y => coefsWords y.coefs) ((x.sections.drop first).take 6) ++
              [wordOf (s.screens[n].eng.delayAllocation c)] ++ longWords s.blockCounter))) ∧
      exec (.cueRead h (.cue 0) part) s = .next (s.refusedWith h .cueRead .range) ∧
      (∀ id, id ≠ 0 → (∀ c ∈ s.screens[n].cues, c.id ≠ id) →
        exec (.cueRead h (.cue id) part) s = .next (s.refusedWith h .cueRead .state)) ∧
      ∀ c ∈ s.screens[n].cues, c.id ≠ 0 → CueListSafe s.screens[n].cues →
        ReadsPart (.cueRead h (.cue c.id) part) h .cueRead part s (cueWords c ++ longWords s.blockCounter)

/-- The reply items of the reading requests, each as it stands and in the order its rule lists: PART-STATUS (R187), PORT-READ
(R23), SCREEN-READ (R61, R42), FORMAT-READ's screen form (R82), EQ-READ's screen and part forms (R106), METER-READ (R130),
ALARM-READ (R131), CUE-READ (R135, R154) and NOTICE-READ (R173). These are assumption log 10's: the count words before lists; the
two words of the pool total; the block counter as the last item of CUE-READ, EQ-READ and NOTICE-READ; a requester's number before
its entry; the pending set lowest id first; the words of toggles and of a line's state; a FOLDED status's partner with no choice
word; the numbers of instance states and port states; and as one optional item each the quiet interval, a pending id's mark, the
unsent notice, the busy channel and the capture record. SCREEN-READ's role as an optional item is assumption log 15's, and the
words of flags are assumption log 13's. -/
def Obligations.ReplyItemsStandInOrder : Prop :=
  ∀ s : State,
    let counter := longWords s.blockCounter
    let nat (x : Option Nat) : List Word := optWords (fun k => [wordOf k]) x
    let long (x : Option Long) : List Word := optWords longWords x
    let bank (k : Bank) : Word := numberOf [.a, .b] k
    let linkState (x : LinkState) : Word := numberOf [.hunt, .exchange, .up] x
    let channelState (x : ChannelState) : Word := numberOf [.ok, .protect, .fault, .absent] x
    let requester (q : Requester) : Word := match q with | .resp => 0 | .screen n => wordOf (n.val + 1)
    let route (x : Route) : List Word := [wordOf x.port.val, nodeWord x.node, wordOf x.count, wordOf x.weight]
    let pendingSet (m : Monitor) : List Word :=
      listWords (fun x : Fin 54 × Bool => [wordOf x.1.val, flagWord x.2])
        ((List.finRange 54).filterMap fun id => m.pending[id].map fun noticed => (id, noticed))
    let marks (m : Monitor) : List Word := listWords (fun x : Mark => [wordOf x.cue, wordOf x.level]) m.marks
    s.statusItems = [0x0812, Config.revision, nodeWord s.node, wordOf s.straps.toNat] ++ counter ++
      ((List.finRange 12).map fun p => wordOf (portStateCode s.ports[p].state)) ++
      ((List.finRange 8).flatMap fun n =>
        [wordOf (screenStateCode s.screens[n].ctx.state), linkState s.screens[n].link.link]) ++
      ((List.finRange 8).map fun n => nodeWord s.screenLocks[n]) ++ [nodeWord s.partLock] ∧
    s.budgetItems = wordOf s.sectionTotal :: longWords (BitVec.ofNat 32 s.poolTotal) ++
      ((List.finRange 8).map fun n => wordOf s.screens[n].eng.sectionAllocation) ++ counter ∧
    s.lineItems = wordOf s.freeStack.length :: ((List.finRange 16).flatMap fun l =>
      nat (s.lines[l].owner.map (·.val)) ++ [numberOf [.cue, .alarm] s.lines[l].mode, wordOf s.lines[l].threshold,
        clearFirstWord s.lines[l].closed] ++ long s.lines[l].pulseEnd) ++ counter ∧
    (∀ p : Fin 12, s.portItems p =
      [wordOf (portStateCode s.ports[p].state), flagWord s.ports[p].settings.enable, wordOf s.ports[p].settings.holdover,
       wordOf s.ports[p].settings.dropCount, wordOf s.ports[p].settings.dropWindow, flagWord s.ports[p].settings.dropEnable,
       wordOf s.ports[p].buffer.length, clearFirstWord s.ports[p].started, wordOf s.ports[p].counters.checkErrors,
       wordOf s.ports[p].counters.slips, wordOf s.ports[p].counters.recoveries, wordOf s.ports[p].counters.fastDrops,
       wordOf s.ports[p].counters.relocks, wordOf s.ports[p].counters.stopEntries, wordOf s.ports[p].counters.discarded] ++
      optWords (fun x : Capture => numberOf [.check, .sync, .descriptor, .service] x.kind :: nat x.index ++
        longWords x.counter ++ long x.lastGood ++ [flagWord x.more]) s.ports[p].capture ++ long s.ports[p].lastGood ++
      optWords (fun b => [nodeWord b]) s.ports[p].lastTimedOut ++ counter) ∧
    (∀ p : Fin 12, let a := s.arbiters[p]
      let listed (q : Requester) : Bool := match q with
        | .resp => true
        | .screen n => decide (s.screens[n].ctx.route.map (·.port) = some p)
      let guarantee (q : Requester) : Nat := match q with
        | .resp => a.respCount
        | .screen n => (s.screens[n].ctx.route.map (·.count)).getD 0
      let weight (q : Requester) : Nat := match q with
        | .resp => a.respWeight
        | .screen n => (s.screens[n].ctx.route.map (·.weight)).getD 1
      s.arbiterItems p = [wordOf a.interval, wordOf a.nextInterval, wordOf a.remainder] ++
        listWords (fun q => [requester q, wordOf (guarantee q), wordOf (weight q), wordOf (remaining a q), flagWord (s.waits p q)])
          ((Requester.resp :: (List.finRange 8).map Requester.screen).filter listed) ++
        optWords (fun q => [requester q]) a.lastGranted ++ optWords (fun q => [requester q]) a.holder ++ [wordOf a.burst] ++
        optWords (fun m : Sending => [requester m.owner]) a.channel ++
        [wordOf a.queue.length, wordOf a.requestsDiscarded, wordOf a.responsesExpired, wordOf a.messagesAbandoned] ++ counter) ∧
    (∀ (p : Fin 12) (q : Requester), s.waits p q = true ↔ Waits s p q) ∧
    ∀ n : Fin 8, let x := s.screens[n]
      s.screenItems n = [wordOf (screenStateCode x.ctx.state)] ++
        (nat (x.ctx.primary.map (·.val)) ++ nat (x.ctx.alternate.map (·.val)) ++ [flagWord x.ctx.follow, wordOf x.ctx.fallback] ++
          nat x.ctx.override ++ (x.ctx.map.toList.flatMap fun e => optWords (fun role => [numberOf allRoles role]) e.role ++
            [flagWord e.expected] ++ nat (e.partner.map (·.val)) ++ [wordOf e.gain]) ++
          [flagWord x.ctx.foldEnable, wordOf x.ctx.meterSpeed, wordOf x.ctx.window] ++ optWords route x.ctx.route) ++
        ([numberOf [.primary, .alternate, .none] x.ctx.active] ++
          optWords (fun r => [numberOf [SourceRole.primary, .alternate] r]) x.ctx.requested ++
          [flagWord x.ctx.failoverDue, wordOf x.ctx.failovers] ++ nat x.ctx.descTag ++
          [wordOf x.ctx.resolved, flagWord x.ctx.formatCond] ++ long x.ctx.lastProgram ++ long x.ctx.lastPosition ++
          [flagWord x.ctx.positionLost]) ++
        ([linkState x.link.link, clearFirstWord x.link.echo, clearFirstWord x.link.lastToggle] ++
          optWords (fun w => [w]) x.link.rackId ++ nat x.link.channelCount ++ x.link.stored.toList.map channelState ++
          x.link.presented.toList.map channelState ++ [wordOf x.link.linkDrops, wordOf x.link.timeouts]) ++ counter ∧
      s.decodeItems n = [wordOf x.dec.tag, flagWord x.dec.stale] ++ sampleWords x.dec.sumEnv ++ sampleWords x.dec.diffEnv ++
        [wordOf x.dec.target, wordOf x.dec.weight] ++ (x.dec.folds.toList.flatMap fun f => match f with
          | .normal => [0]
          | .folded k => [1, wordOf k.val]
          | .dropped => [2]) ++ [wordOf x.dec.foldLosses] ++ counter ∧
      s.engineItems n = [bank x.eng.active] ++ optWords (fun k => [bank k]) x.eng.pendingSwitch ++
        optWords (fun f : Crossfade => [bank f.incoming, wordOf f.frame]) x.eng.crossfade ++ [wordOf x.eng.fader] ++
        optWords (fun f : Fade => [wordOf f.target, wordOf f.step]) x.eng.fade ++ [flagWord x.eng.mute] ++
        [wordOf x.eng.sectionAllocation] ++ counter ∧
      s.meterItems n = [wordOf x.mon.speed] ++
        ((List.finRange 16).flatMap fun c => sampleWords x.mon.meters[c].peak ++ sampleWords x.mon.meters[c].level) ++ counter ∧
      s.alarmItems n = ((List.finRange 54).map fun id => wordOf (alarmStateCode x.mon.alarms[id].state)) ++ pendingSet x.mon ++
        nat x.mon.summary ++ marks x.mon ++ [wordOf x.mon.markOverflow, flagWord x.quiet.isSome] ++ counter ∧
      (∀ id : Fin 54, let a := x.mon.alarms[id]
        let r := x.mon.record id
        s.oneAlarmItems n id = [wordOf (alarmStateCode a.state)] ++ (match a.state with
            | .clear | .raised => []
            | .qualifying => [wordOf a.count, wordOf a.left]
            | .releasing => [wordOf a.clean]) ++ optWords (fun noticed => [flagWord noticed]) x.mon.pending[id] ++
          [flagWord r.enable, wordOf r.level] ++ optWords sampleWords r.threshold ++
          [wordOf r.count, wordOf r.window, wordOf r.release, flagWord r.quiet] ++ counter) ∧
      s.cueItems n = [wordOf x.cues.length] ++ ([CueState.armed, .fired, .missed, .passed].map fun st =>
          wordOf (x.cues.countP fun k => k.state == st)) ++ [wordOf s.freeStack.length] ++ long x.quiet ++ counter ∧
      (∀ first, s.cueListItems n first = listWords cueWords ((x.cues.drop first).take 6) ++ counter) ∧
      (∀ k : Cue, cueWords k = [wordOf k.id] ++ longWords k.program ++ longWords k.trigger ++
        (match k.action with
          | .contact line .closeLine => [0, wordOf line, 0]
          | .contact line .openLine => [0, wordOf line, 1]
          | .contact line (.pulse ms) => [0, wordOf line, 2, wordOf ms]
          | .fade target duration => [1, wordOf target, wordOf duration]
          | .mute on => [2, flagWord on]
          | .eqBank k => [3, bank k]
          | .format tag => 4 :: nat tag
          | .source role => [5, numberOf [.primary, .alternate] role]
          | .quiet d => 6 :: longWords (BitVec.ofNat 32 d)
          | .mark level => [7, wordOf level]) ++
        [flagWord k.catchUp, numberOf [.armed, .fired, .missed, .passed] k.state] ++
        optWords (fun o => [numberOf [.applied, .declined] o]) k.outcome ++ [flagWord k.loadDue]) ∧
      s.noticeItems n = [wordOf x.notice.ceiling] ++ listWords (fun e : StackEntry => [wordOf e.saved] ++
          (match e.source with | .alarm id => [0, wordOf id.val] | .mark cue => [1, wordOf cue]) ++ [wordOf e.level, e.tag])
          x.notice.stack.reverse ++ pendingSet x.mon ++ marks x.mon ++
        optWords (fun u : Unsent => [clearFirstWord u.sending, u.tag]) x.notice.unsent ++ optWords route x.ctx.route ++
        [x.notice.sequence, wordOf x.notice.lost] ++ counter

/-! ### Requests on program ports -/

/-- PORT-CLEAR (R24, and R173 for the arbiter's counters): the seven counters are 0, the capture record is empty and the last
timed-out source absent; the port's three arbiter counters are 0; nothing else changes, and the response is DONE. A port of 12
or above is refused with REFUSED-RANGE. -/
def Obligations.PortClearZeroesTheCounters : Prop :=
  ∀ (h : ReqHead) (s : State),
    (∀ p : Fin 12, UnderPartLock (.portClear h p.val) h .portClear s <|
      exec (.portClear h p.val) s = .next (((s.modPort p fun x =>
        { x with counters := { checkErrors := 0, slips := 0, recoveries := 0, fastDrops := 0, relocks := 0, stopEntries := 0
                               discarded := 0 }
                 capture := none, lastTimedOut := none }).modArb p fun a =>
        { a with requestsDiscarded := 0, responsesExpired := 0, messagesAbandoned := 0 }).answered h .portClear [])) ∧
    ∀ port, 12 ≤ port → UnderPartLock (.portClear h port) h .portClear s (
      exec (.portClear h port) s = .next (s.refusedWith h .portClear .range))

/-- PORT-SET and PORT-RESTART. PORT-SET (R22, R7, R10): a drop count or drop window outside 1 to 255, or a port of 12 or above, is
refused with REFUSED-RANGE. Otherwise the settings are written, the holdover time clamped to 250, and a change of the drop settings
closes the fast-drop window. An enable of on takes a DOWN port to HUNT and leaves any other state; an enable of off takes the port to
DOWN, with a message under assembly counted as discarded and captured, and a message being sent from LOCKED abandoned. PORT-RESTART
(R25): a port that is not DOWN is in HUNT with every run at 0, its buffer empty and both assemblers cleared, and a message being sent
from LOCKED is abandoned (R172); its settings, counters, capture record, last good position and last timed-out source are kept. In
DOWN it is refused with REFUSED-STATE; a port of 12 or above with REFUSED-RANGE. -/
def Obligations.PortSetAndRestartGovernThePort : Prop :=
  (∀ (h : ReqHead) (enable : Bool) (holdover dropCount dropWindow : Nat) (dropEnable : Bool) (s : State),
     (∀ port, 12 ≤ port → UnderPartLock (.portSet h port enable holdover dropCount dropWindow dropEnable) h .portSet s (
       exec (.portSet h port enable holdover dropCount dropWindow dropEnable) s = .next (s.refusedWith h .portSet .range))) ∧
     ∀ p : Fin 12, UnderPartLock (.portSet h p.val enable holdover dropCount dropWindow dropEnable) h .portSet s <|
       let c : Instr := .portSet h p.val enable holdover dropCount dropWindow dropEnable
       let inRange := 1 ≤ dropCount ∧ dropCount ≤ 255 ∧ 1 ≤ dropWindow ∧ dropWindow ≤ 255
       let written := s.modPort p fun x =>
         { x with settings := { enable, holdover := min holdover 250, dropCount, dropWindow, dropEnable }
                  window := if x.settings.dropCount = dropCount ∧ x.settings.dropWindow = dropWindow ∧
                      x.settings.dropEnable = dropEnable then x.window else none }
       (¬inRange → exec c s = .next (s.refusedWith h .portSet .range)) ∧
       (inRange → (enable = true ↔ s.ports[p].state ≠ .down) → exec c s = .next (written.answered h .portSet [])) ∧
       (inRange → enable = true → s.ports[p].state = .down →
         exec c s = .next ((written.modPort p (idlePort .hunt)).answered h .portSet [])) ∧
       (inRange → enable = false → s.ports[p].state ≠ .down →
         let dropped := if s.ports[p].assembly = none then written
           else written.modPort p fun x =>
             { x with counters := { x.counters with discarded := oneMore x.counters.discarded }
                      capture := offered x .service none s.blockCounter }
         let idle := dropped.modPort p (idlePort .down)
         exec c s = .next ((if s.ports[p].state = .locked then idle.abandonMessage p else idle).answered h .portSet []))) ∧
  ∀ (h : ReqHead) (s : State),
    (∀ port, 12 ≤ port → UnderPartLock (.portRestart h port) h .portRestart s (
      exec (.portRestart h port) s = .next (s.refusedWith h .portRestart .range))) ∧
    ∀ p : Fin 12, UnderPartLock (.portRestart h p.val) h .portRestart s <|
      (s.ports[p].state = .down → exec (.portRestart h p.val) s = .next (s.refusedWith h .portRestart .state)) ∧
      (s.ports[p].state ≠ .down →
        let idle := s.modPort p (idlePort .hunt)
        exec (.portRestart h p.val) s = .next
          ((if s.ports[p].state = .locked then idle.abandonMessage p else idle).answered h .portRestart []))

/-! ### Requests on screens -/

/-- SCREEN-SET (R60): an item out of range, two items that set the same thing, or one port as both source ports refuses the
request with REFUSED-RANGE and none is written. Otherwise every item carried is written, with its clamp, every item not carried
stays, and nothing but the screen record's configuration changes. -/
def Obligations.ScreenSetWritesTheItemsCarried : Prop :=
  ∀ (h : ReqHead) (items : List ScreenItem) (s : State),
    UnderScreenLock (.screenSet h items) h .screenSet s fun n =>
      let old := s.screens[n].ctx
      let distinct := items.Pairwise fun x y => ¬SameItem x y
      let inRange := ∀ i ∈ items, ItemInRange s i
      let samePort := ∃ p, portAfter pickPrimary items old.primary = some p ∧ portAfter pickAlternate items old.alternate = some p
      (¬distinct ∨ ¬inRange ∨ samePort → exec (.screenSet h items) s = .next (s.refusedWith h .screenSet .range)) ∧
      (distinct → inRange → ¬samePort → ∃ c : Context,
        exec (.screenSet h items) s = .next ((s.modCtx n fun _ => c).answered h .screenSet []) ∧
        c.primary.map (·.val) = portAfter pickPrimary items old.primary ∧
        c.alternate.map (·.val) = portAfter pickAlternate items old.alternate ∧
        (∀ on, .follow on ∈ items → c.follow = on) ∧ ((∀ on, .follow on ∉ items) → c.follow = old.follow) ∧
        (∀ tag, .fallback tag ∈ items → c.fallback = tag) ∧ ((∀ tag, .fallback tag ∉ items) → c.fallback = old.fallback) ∧
        (∀ tag, .override tag ∈ items → c.override = tag) ∧ ((∀ tag, .override tag ∉ items) → c.override = old.override) ∧
        (∀ on, .foldEnable on ∈ items → c.foldEnable = on) ∧
        ((∀ on, .foldEnable on ∉ items) → c.foldEnable = old.foldEnable) ∧
        (∀ x, .meterSpeed x ∈ items → c.meterSpeed = max 1 (min x 8)) ∧
        ((∀ x, .meterSpeed x ∉ items) → c.meterSpeed = old.meterSpeed) ∧
        (∀ ms, .window ms ∈ items → c.window = min ms 10000) ∧ ((∀ ms, .window ms ∉ items) → c.window = old.window) ∧
        (∀ k : Fin 16, (∀ e, .mapEntry k.val e ∈ items →
            c.map[k].role = e.role ∧ c.map[k].expected = e.expected ∧ c.map[k].partner.map (·.val) = e.partner ∧
              c.map[k].gain = e.gain) ∧
          ((∀ e, .mapEntry k.val e ∉ items) → c.map[k] = old.map[k])) ∧
        c = { old with primary := c.primary, alternate := c.alternate, follow := c.follow, fallback := c.fallback
                       override := c.override, map := c.map, foldEnable := c.foldEnable, meterSpeed := c.meterSpeed
                       window := c.window })

/-- SCREEN-STATE (R44 to R47, R96, R100, R73, R148, R120). Naming the state the screen is in changes nothing. From DARK the screen
selects its source; every entry to RUNNING makes the last evaluated position absent and clears the position-lost flag, and makes
failover due where the primary is active and LOST with an alternate configured; leaving RUNNING ends the quiet interval, clears
failover due and returns SILENT to CLEAR; the entry to DARK also clears the source, the fader, mute, fade, crossfade, section
states, lines and steering. The response is DONE. The port kept with the active source is the model's own field (assumption
log 8). -/
def Obligations.ScreenStateEntersTheNamedState : Prop :=
  ∀ (h : ReqHead) (target : ScreenState) (s : State),
    UnderScreenLock (.screenState h target) h .screenState s fun n =>
      let x := s.screens[n]
      let c := x.ctx
      let goes (t : State) : Prop := exec (.screenState h target) s = .next (t.answered h .screenState [])
      let source (c : Context) : Context :=
        match c.primary, c.alternate with
        | some p, _ => { c with active := .primary, activePort := some p }
        | none, some p => { c with active := .alternate, activePort := some p }
        | none, none => { c with active := .none, activePort := none }
      let run := entersRunning s
      (c.state = target → goes s) ∧
      (c.state = .dark → target = .standby → goes (s.modCtx n fun c => { source c with state := .standby })) ∧
      (c.state = .dark → target = .running → goes (s.modCtx n fun c => run (source c))) ∧
      (c.state = .standby → target = .running → goes (s.modCtx n run)) ∧
      (c.state = .running → target = .standby → ∃ t, goes t ∧
        ClearsAlarms n (fun id => 32 ≤ id.val ∧ id.val ≤ 47) x.mon
          (s.modScreen n fun x => { x with quiet := none, ctx := { c with state := .standby, failoverDue := false } }) t) ∧
      (c.state ≠ .dark → target = .dark → ∃ t, goes t ∧
        ClearsAlarms n (SuppressedBy { x.mon with handedFader := 0 }) { x.mon with handedFader := 0 }
          (s.modScreen n fun x =>
            { x with quiet := if c.state = .running then none else x.quiet
                     ctx := { c with state := .dark, active := .none, activePort := none, requested := none
                                     failoverDue := false, descTag := none, positionLost := false }
                     eng := { x.eng with active := selectedBank x.eng, crossfade := none, fader := 0, fade := none
                                         mute := false, lines := Vector.replicate 16 []
                                         bankA := restedBank x.eng.bankA, bankB := restedBank x.eng.bankB }
                     dec := { x.dec with sumEnv := 0, diffEnv := 0, target := 0, weight := 0
                                         blended := x.dec.format.rows.map (·.a) } }) t)

/-- SCREEN-SOURCE (R51): refused with REFUSED-STATE where the screen is DARK or the role has no port configured; otherwise the role
becomes the requested source, failover due is cleared, and the response is DONE. -/
def Obligations.ScreenSourceBecomesTheRequestedSource : Prop :=
  ∀ (h : ReqHead) (role : SourceRole) (s : State),
    UnderScreenLock (.screenSource h role) h .screenSource s fun n =>
      let c := s.screens[n].ctx
      let absent := (role = .primary ∧ c.primary = none) ∨ (role = .alternate ∧ c.alternate = none)
      (c.state = .dark ∨ absent → exec (.screenSource h role) s = .next (s.refusedWith h .screenSource .state)) ∧
      (c.state ≠ .dark → ¬absent → ∃ u, SourceEffect n role s u ∧
        exec (.screenSource h role) s = .next (u.answered h .screenSource []))

/-- SCREEN-RESET (R62, R43, R83, R107, R132, R155, R174, R158, R186): from any state the screen is DARK as an entry to DARK leaves
it, its last program id and position absent, its port in HUNT with its counts kept, its cues ARMED, its quiet interval closed, its
meters, instances, pending set and mark queue cleared, its ceiling open, its stack empty and a waiting notice discarded; its
ALARM-mode lines open. Configuration, counts, locks and every other block stay. -/
def Obligations.ScreenResetClearsWhatWasLearned : Prop :=
  ∀ (h : ReqHead) (s : State), UnderScreenLock (.screenReset h) h .screenReset s fun n =>
    exec (.screenReset h) s = .next (State.answered
      { s.modScreen n fun x =>
          { ctx := { x.ctx with state := .dark, active := .none, activePort := none, requested := none, failoverDue := false
                                descTag := none, positionLost := false, lastProgram := none, lastPosition := none }
            link := huntLink x.link
            dec := { x.dec with sumEnv := 0, diffEnv := 0, target := 0, weight := 0, blended := x.dec.format.rows.map (·.a) }
            eng := { x.eng with active := selectedBank x.eng, crossfade := none, fader := 0, fade := none, mute := false
                                lines := Vector.replicate 16 [], bankA := restedBank x.eng.bankA
                                bankB := restedBank x.eng.bankB }
            mon := { x.mon with meters := Vector.replicate 16 { running := 0, peak := 0, level := 0 }
                                alarms := Vector.replicate 54 { state := .clear, count := 0, left := 0, clean := 0, hit := false }
                                pending := Vector.replicate 54 none, marks := [], evaluated := .dark, handedFader := 0
                                summary := none }
            cues := x.cues.map fun c => { c with state := .armed, outcome := none, loadDue := false }
            quiet := none
            notice := { x.notice with ceiling := 4, stack := [], unsent := x.notice.unsent.filter (·.sending) } }
        with lines := Vector.ofFn fun l =>
          if s.lines[l].mode = .alarm ∧ s.lines[l].owner = some n then { s.lines[l] with closed := false } else s.lines[l] }
      h .screenReset [])

/-! ### Requests on formats -/

/-- FORMAT-LOAD BEGIN and ROWS (R67, R68, R179). At a BEGIN a tag outside 1 to 6 and 16 to 31, or operands out of range, are refused
with REFUSED-RANGE, and a built-in tag with REFUSED-STATE; otherwise the staging record is opened afresh for the tag, owned by the
source node, with no coefficients given, and nothing else changes. At a ROWS a list of no or more than 16 coefficients is refused
with REFUSED-RANGE; a staging record that is absent, of another owner or of another tag, with REFUSED-STATE; a row at or above the
staged count, or matrix B without steering, with REFUSED-RANGE; otherwise the row takes the listed values from column 0 and zero
beyond them. -/
def Obligations.FormatLoadsFillTheStaging : Prop :=
  (∀ (h : ReqHead) (x : FormatHeader) (s : State),
     UnderPartLock (.formatLoadBegin h x) h .formatLoadBegin s <|
       let refused (code : RefusalCode) : Prop := exec (.formatLoadBegin h x) s = .next (s.refusedWith h .formatLoadBegin code)
       (x.tag = 0 ∨ (7 ≤ x.tag ∧ x.tag ≤ 15) ∨ 32 ≤ x.tag → refused .range) ∧
       (¬HeaderInRange x → refused .range) ∧
       (1 ≤ x.tag → x.tag ≤ 6 → HeaderInRange x → refused .state) ∧
       (16 ≤ x.tag → x.tag ≤ 31 → HeaderInRange x → ∃ st : Option Steering,
         (st.map fun y => ({ first := y.first.val, second := y.second.val, shift := y.shift, slew := y.slew } : SteeringOperand)) =
           x.steering ∧
         let staged : Staging :=
           { tag := x.tag, owner := h.source, inputs := x.inputs, steering := st
             rows := x.roles.map fun role => { role := role, a := none, b := none } }
         exec (.formatLoadBegin h x) s = .next (State.answered { s with staging := some staged } h .formatLoadBegin []))) ∧
  ∀ (h : ReqHead) (tag row : Nat) (matrix : Matrix) (coefs : List Int) (s : State),
    UnderPartLock (.formatLoadRows h tag row matrix coefs) h .formatLoadRows s <|
      let c : Instr := .formatLoadRows h tag row matrix coefs
      let refused (code : RefusalCode) : Prop := exec c s = .next (s.refusedWith h .formatLoadRows code)
      let listed : Vector Int 16 := Vector.ofFn fun j => (coefs[j.val]?).getD 0
      (coefs = [] ∨ 17 ≤ coefs.length → refused .range) ∧
      (1 ≤ coefs.length → coefs.length ≤ 16 →
        ((∀ g, s.staging = some g → g.owner ≠ h.source ∨ g.tag ≠ tag) → refused .state) ∧
        ∀ g, s.staging = some g → g.owner = h.source → g.tag = tag →
          (g.rows.length ≤ row ∨ (matrix = .b ∧ g.steering = none) → refused .range) ∧
          ∀ r, g.rows[row]? = some r →
            (matrix = .a → exec c s = .next (State.answered
              { s with staging := some { g with rows := g.rows.set row { r with a := some listed } } } h .formatLoadRows [])) ∧
            (matrix = .b → g.steering ≠ none → exec c s = .next (State.answered
              { s with staging := some { g with rows := g.rows.set row { r with b := some listed } } } h .formatLoadRows [])))

/-- FORMAT-LOAD COMMIT and CLEAR (R69 to R71). A COMMIT without the node's own staging record for the tag, or with a row lacking a
matrix, is refused with REFUSED-STATE; otherwise the entry under the tag is the staged record, the staging record is absent, and
the stale flag of every screen working with the tag is set. A CLEAR removes the entry and sets the same flags; of a tag that holds
no record it changes nothing; of a built-in tag it is refused with REFUSED-STATE, of any other tag with REFUSED-RANGE. -/
def Obligations.FormatCommitAndClearReplaceTheEntry : Prop :=
  ∀ (h : ReqHead) (tag : Nat) (s : State),
    let stale (t : State) : State :=
      { t with screens := Vector.ofFn fun n =>
          if t.screens[n].dec.tag = tag then { t.screens[n] with dec := { t.screens[n].dec with stale := true } }
          else t.screens[n] }
    (UnderPartLock (.formatLoadCommit h tag) h .formatLoadCommit s <|
      let whole (g : Staging) : Prop := ∀ r ∈ g.rows, r.a.isSome = true ∧ (g.steering.isSome = true → r.b.isSome = true)
      ((∀ g, s.staging = some g → g.owner ≠ h.source ∨ g.tag ≠ tag ∨ ¬whole g) →
        exec (.formatLoadCommit h tag) s = .next (s.refusedWith h .formatLoadCommit .state)) ∧
      ∀ (g : Staging) (i : Fin 16), tag = 16 + i.val → s.staging = some g → g.owner = h.source → g.tag = tag → whole g →
        ∃ x : FormatRecord, x.inputs = g.inputs ∧ x.steering = g.steering ∧ x.rows.map (·.role) = g.rows.map (·.role) ∧
          (∀ (k : Nat) (r : StagedRow) (w : FormatRow), g.rows[k]? = some r → x.rows[k]? = some w →
            r.a = some w.a ∧ (g.steering.isSome = true → r.b = some w.b)) ∧
          exec (.formatLoadCommit h tag) s = .next (State.answered
            (stale { s with staging := none, loaded := s.loaded.set i.val (some x) }) h .formatLoadCommit [])) ∧
    (UnderPartLock (.formatLoadClear h tag) h .formatLoadClear s <|
      (tag = 0 ∨ (7 ≤ tag ∧ tag ≤ 15) ∨ 32 ≤ tag →
        exec (.formatLoadClear h tag) s = .next (s.refusedWith h .formatLoadClear .range)) ∧
      (1 ≤ tag → tag ≤ 6 → exec (.formatLoadClear h tag) s = .next (s.refusedWith h .formatLoadClear .state)) ∧
      ∀ i : Fin 16, tag = 16 + i.val →
        (s.loaded[i] = none → exec (.formatLoadClear h tag) s = .next (s.answered h .formatLoadClear [])) ∧
        (s.loaded[i].isSome = true → exec (.formatLoadClear h tag) s = .next (State.answered
          (stale { s with loaded := s.loaded.set i.val none }) h .formatLoadClear [])))

/-! ### Requests on the filter engine -/

/-- EQ-LOAD HEAD and SECTIONS (R101 to R103, R86, R87, R89, R179). At a HEAD operands out of range are refused with REFUSED-RANGE,
a barred bank with REFUSED-STATE, and a load that would bring the section total above 2,048 or the pool total above 65,536 with
REFUSED-BUDGET; otherwise the record takes the count, delay and trim, keeps the coefficients of its sections below the count,
passes the input in added ones, and every section of it is at rest, and the channel's line keeps its newest entries up to the
allocation. At a SECTIONS no or more than six sections, a channel above 15, or sections beyond the record's count are refused with
REFUSED-RANGE, and then a barred bank with REFUSED-STATE; otherwise the carried coefficients stand in the sections from the first
index, every section of the record is at rest, and nothing else changes. The totals are written out: the section counts of all
records of both banks, and the larger of the two delays of each output channel (R86, R87). -/
def Obligations.EqLoadsWriteTheRecord : Prop :=
  (∀ s : State,
    (∀ e : Engine, e.sectionAllocation =
        ((List.finRange 16).map fun c => (e.bank .a)[c].sections.length + (e.bank .b)[c].sections.length).sum ∧
      ∀ c : Fin 16, e.delayAllocation c = max (e.bank .a)[c].delay (e.bank .b)[c].delay) ∧
    s.sectionTotal = ((List.finRange 8).map fun n => s.screens[n].eng.sectionAllocation).sum ∧
    s.poolTotal = ((List.finRange 8).map fun n =>
      ((List.finRange 16).map fun c => s.screens[n].eng.delayAllocation c).sum).sum) ∧
  (∀ (h : ReqHead) (k : Bank) (channel count delay trim : Nat) (s : State),
     UnderScreenLock (.eqLoadHead h k channel count delay trim) h .eqLoadHead s fun n =>
       let x : Instr := .eqLoadHead h k channel count delay trim
       let refused (code : RefusalCode) : Prop := exec x s = .next (s.refusedWith h .eqLoadHead code)
       let e := s.screens[n].eng
       (16 ≤ channel ∨ 13 ≤ count ∨ 4801 ≤ delay → refused .range) ∧
       ∀ c : Fin 16, channel = c.val → count ≤ 12 → delay ≤ 4800 →
         let old := (e.bank k)[c].sections
         let new : Chain :=
           { sections := (List.range count).map fun i =>
               { coefs := match old[i]? with
                   | some y => y.coefs
                   | none => { b0 := 1048576, b1 := 0, b2 := 0, a1 := 0, a2 := 0 }
                 x1 := 0, x2 := 0, y1 := 0, y2 := 0 }
             delay, trim }
         let allocation := max delay (e.bank (otherBank k))[c].delay
         let t := s.modEng n fun e =>
           { e.setBank k ((e.bank k).set c.val new) with lines := e.lines.set c.val (e.lines[c].take allocation) }
         (LoadBarred s.screens[n] k → refused .state) ∧
         (¬LoadBarred s.screens[n] k → 2048 < t.sectionTotal ∨ 65536 < t.poolTotal → refused .budget) ∧
         (¬LoadBarred s.screens[n] k → t.sectionTotal ≤ 2048 → t.poolTotal ≤ 65536 →
           exec x s = .next (t.answered h .eqLoadHead []))) ∧
  ∀ (h : ReqHead) (k : Bank) (channel first : Nat) (new : List Coefs) (s : State),
    UnderScreenLock (.eqLoadSections h k channel first new) h .eqLoadSections s fun n =>
      let x : Instr := .eqLoadSections h k channel first new
      let refused (code : RefusalCode) : Prop := exec x s = .next (s.refusedWith h .eqLoadSections code)
      (16 ≤ channel ∨ new = [] ∨ 7 ≤ new.length → refused .range) ∧
      ∀ c : Fin 16, channel = c.val → 1 ≤ new.length → new.length ≤ 6 →
        let old := (s.screens[n].eng.bank k)[c]
        (old.sections.length < first + new.length → refused .range) ∧
        (first + new.length ≤ old.sections.length → LoadBarred s.screens[n] k → refused .state) ∧
        (first + new.length ≤ old.sections.length → ¬LoadBarred s.screens[n] k →
          exec x s = .next ((s.modEng n fun e => e.setBank k ((e.bank k).set c.val
            { old with sections := old.sections.mapIdx fun i y =>
                { coefs := if first ≤ i then (new[i - first]?).getD y.coefs else y.coefs
                  x1 := 0, x2 := 0, y1 := 0, y2 := 0 } })).answered h .eqLoadSections []))

/-- EQ-SELECT, MUTE and FADE (R92, R94, R97, R104, R105), each answered DONE in every screen state. A bank that is not the
selected bank becomes the pending switch, and the selected bank cancels it; a mute is set or cleared, and a mute set returns every
suppressed instance to CLEAR (R120). A FADE's target and duration are clamped; with duration 0 the level becomes the target at
once and any fade ends; with the target equal to the level any fade ends; otherwise a fade starts with step ceil(|T - level| / D).
A level that becomes 0 at once suppresses SILENT (R120). -/
def Obligations.EqSelectMuteAndFadeActAtOnce : Prop :=
  (∀ (h : ReqHead) (s : State),
     (∀ k, UnderScreenLock (.eqSelect h k) h .eqSelect s fun n =>
       ∃ u, SelectEffect n k s u ∧ exec (.eqSelect h k) s = .next (u.answered h .eqSelect [])) ∧
     ∀ on, UnderScreenLock (.mute h on) h .mute s fun n =>
       ∃ u, MuteEffect n on s u ∧ exec (.mute h on) s = .next (u.answered h .mute [])) ∧
  ∀ (h : ReqHead) (target duration : Nat) (s : State),
    UnderScreenLock (.fade h target duration) h .fade s fun n =>
      ∃ u, FadeEffect n target duration s u ∧ exec (.fade h target duration) s = .next (u.answered h .fade [])

/-! ### Requests on alarms -/

/-- ALARM-SET (R115, R122, R129): a level above 3 is refused with REFUSED-RANGE. Otherwise the class record is replaced entire, with
a count and window of at least 1 and the threshold clamped for OVER and SILENT and absent for the other classes; every instance of
the class returns to CLEAR, the pending flags stand, and the summary is formed again. -/
def Obligations.AlarmSetReplacesTheClassRecord : Prop :=
  ∀ (h : ReqHead) (cls : AlarmClass) (x : AlarmOperand) (s : State),
    UnderScreenLock (.alarmSet h cls x) h .alarmSet s fun n =>
      let m := s.screens[n].mon
      let record : ClassRecord :=
        { enable := x.enable, level := x.level
          threshold := if cls = .over ∨ cls = .silent then some (max (-8388608) (min 8388607 x.threshold)) else none
          count := max 1 x.count, window := max 1 x.window, release := x.release, quiet := x.quiet }
      (4 ≤ x.level → exec (.alarmSet h cls x) s = .next (s.refusedWith h .alarmSet .range)) ∧
      (x.level ≤ 3 → ∃ t, exec (.alarmSet h cls x) s = .next (t.answered h .alarmSet []) ∧
        ClearsAlarms n (fun id => classOf id = cls) { m with table := m.table.set (classIndex cls).val record } s t)

/-- ALARM-ACK (R124): an empty list, a list of more than 54, or an id above 53 is refused with REFUSED-RANGE. Otherwise each listed
id leaves the pending set with its noticed mark, nothing else changes, and the response is DONE. -/
def Obligations.AlarmAckRemovesFromThePendingSet : Prop :=
  ∀ (h : ReqHead) (ids : List Nat) (s : State), UnderScreenLock (.alarmAck h ids) h .alarmAck s fun n =>
    (ids = [] ∨ 55 ≤ ids.length ∨ (∃ id ∈ ids, 54 ≤ id) →
      exec (.alarmAck h ids) s = .next (s.refusedWith h .alarmAck .range)) ∧
    (1 ≤ ids.length → ids.length ≤ 54 → (∀ id ∈ ids, id ≤ 53) →
      exec (.alarmAck h ids) s = .next ((s.modMon n fun m =>
        { m with pending := Vector.ofFn fun id => if id.val ∈ ids then none else m.pending[id] }).answered h .alarmAck []))

/-- ALARM-TEST (R125): the list is checked as for ALARM-ACK. Each listed id is then in the pending set with its noticed mark clear,
nothing else changes, and the response is DONE. -/
def Obligations.AlarmTestAddsToThePendingSet : Prop :=
  ∀ (h : ReqHead) (ids : List Nat) (s : State), UnderScreenLock (.alarmTest h ids) h .alarmTest s fun n =>
    (ids = [] ∨ 55 ≤ ids.length ∨ (∃ id ∈ ids, 54 ≤ id) →
      exec (.alarmTest h ids) s = .next (s.refusedWith h .alarmTest .range)) ∧
    (1 ≤ ids.length → ids.length ≤ 54 → (∀ id ∈ ids, id ≤ 53) →
      exec (.alarmTest h ids) s = .next ((s.modMon n fun m =>
        { m with pending := Vector.ofFn fun id => if id.val ∈ ids then some false else m.pending[id] }).answered h .alarmTest []))

/-! ### Requests on cues and contact lines -/

/-- CUE-LOAD (R149, R150, R133, R134), in a screen whose list is in list order: operands out of range are refused with
REFUSED-RANGE; a new id on an empty free stack with REFUSED-FULL. Otherwise the list holds the carried cue at its place, in the top
record of the free stack or, for an id already listed, in that cue's record; the cue is ARMED, or PASSED where it is already due
without fire-if-due, with its load-due mark set where it is already due with it, and no outcome. -/
def Obligations.CueLoadPlacesTheCue : Prop :=
  ∀ (h : ReqHead) (k : CueOperand) (s : State), UnderScreenLock (.cueLoad h k) h .cueLoad s fun n =>
    let x := s.screens[n]
    let cue (record : Nat) (c : Cue) : Prop :=
      (AlreadyDue x k.program k.trigger → k.fireIfDue = false → c.state = .passed) ∧
      (¬(AlreadyDue x k.program k.trigger ∧ k.fireIfDue = false) → c.state = .armed) ∧
      (c.loadDue = true ↔ AlreadyDue x k.program k.trigger ∧ k.fireIfDue = true) ∧
      c = { record, id := k.id, program := k.program, trigger := k.trigger, action := clampedAction k.action
            catchUp := k.catchUp, state := c.state, outcome := none, loadDue := c.loadDue }
    let placed (free : List Nat) (record : Nat) : Prop := ∃ c l, cue record c ∧ CueListSafe l ∧
      l.Perm (c :: x.cues.filter (·.id ≠ k.id)) ∧
      exec (.cueLoad h k) s = .next (({ s with freeStack := free }.modCues n fun _ => l).answered h .cueLoad [])
    (k.id = 0 ∨ ¬ActionInRange k.action → exec (.cueLoad h k) s = .next (s.refusedWith h .cueLoad .range)) ∧
    (k.id ≠ 0 → ActionInRange k.action → (∀ c ∈ x.cues, c.id ≠ k.id) → s.freeStack = [] →
      exec (.cueLoad h k) s = .next (s.refusedWith h .cueLoad .full)) ∧
    (k.id ≠ 0 → ActionInRange k.action → CueListSafe x.cues →
      ((∀ c ∈ x.cues, c.id ≠ k.id) → ∀ record rest, s.freeStack = record :: rest → placed rest record) ∧
      ∀ c ∈ x.cues, c.id = k.id → placed s.freeStack c.record)

/-- CUE-DELETE and CUE-REARM (R151, R153, R133), in a screen whose cue ids differ: an empty list, a list of more than 16 or an id of
0 is refused with REFUSED-RANGE. A deletion removes the listed cues, or all, puts their records on top of the free stack, and gives
their number; with all, in list order. A re-arming makes them ARMED with no outcome and no load-due mark. Unlisted cues stay. -/
def Obligations.CueDeleteAndRearmActOnTheListedCues : Prop :=
  ∀ (h : ReqHead) (which : CueSelection) (s : State),
    (UnderScreenLock (.cueDelete h which) h .cueDelete s fun n =>
      let l := s.screens[n].cues
      let goes (front : List Nat) (left : List Cue) : Prop := exec (.cueDelete h which) s =
        .next (({ s with freeStack := front ++ s.freeStack }.modCues n fun _ => left).answered h .cueDelete
          [BitVec.ofNat 16 (l.length - left.length)])
      (¬SelectionInRange which → exec (.cueDelete h which) s = .next (s.refusedWith h .cueDelete .range)) ∧
      (CueListSafe l → which = .all → goes (l.map (·.record)).reverse []) ∧
      ∀ ids, CueListSafe l → which = .ids ids → SelectionInRange which →
        ∃ front, front.Perm ((l.filter fun c => decide (c.id ∈ ids)).map (·.record)) ∧
          goes front (l.filter fun c => decide (c.id ∉ ids))) ∧
    (UnderScreenLock (.cueRearm h which) h .cueRearm s fun n =>
      (¬SelectionInRange which → exec (.cueRearm h which) s = .next (s.refusedWith h .cueRearm .range)) ∧
      (SelectionInRange which → exec (.cueRearm h which) s = .next ((s.modCues n fun l => l.map fun c =>
        if Selects which c.id then { c with state := .armed, outcome := none, loadDue := false } else c).answered
          h .cueRearm [])))

/-- CUE-FIRE (R152, R142 to R147), in a screen whose cue ids differ: an id of 0 is refused with REFUSED-RANGE, an id not in the list
with REFUSED-STATE. Otherwise the cue fires from whichever state it is in: where a condition of R142 holds it is FIRED with outcome
DECLINED and its action is not applied; else it is FIRED with outcome APPLIED and its action is applied. Its load-due mark is
cleared and the reply gives the outcome, APPLIED 0 or DECLINED 1. That a level-3 mark at the queue's head leaves it in the same step
is assumption log 26's choice. -/
def Obligations.CueFireAppliesOrDeclines : Prop :=
  ∀ (h : ReqHead) (id : Nat) (s : State), UnderScreenLock (.cueFire h id) h .cueFire s fun n =>
    let fired (outcome : CueOutcome) (l : List Cue) : List Cue :=
      l.map fun k => if k.id = id then { k with state := .fired, outcome := some outcome, loadDue := false } else k
    (id = 0 → exec (.cueFire h id) s = .next (s.refusedWith h .cueFire .range)) ∧
    (id ≠ 0 → (∀ c ∈ s.screens[n].cues, c.id ≠ id) → exec (.cueFire h id) s = .next (s.refusedWith h .cueFire .state)) ∧
    (id ≠ 0 → CueListSafe s.screens[n].cues → ∀ c ∈ s.screens[n].cues, c.id = id →
      (Declines s n c.action → exec (.cueFire h id) s = .next ((s.modCues n (fired .declined)).answered h .cueFire [1])) ∧
      (¬Declines s n c.action → ∃ u, ActionEffect n id c.action s u ∧
        exec (.cueFire h id) s = .next ((u.modCues n (fired .applied)).answered h .cueFire [0])))

/-- CONTACT-SET and CONTACT-DRIVE (R159, R160, R157, R158). A line above 15, an owner above 7, a threshold above 3 or a pulse outside
1 to 10,000 ms is refused with REFUSED-RANGE; a drive of a line that the screen does not own in CUE mode, with REFUSED-STATE. A
CONTACT-SET writes the record, OPEN with no pulse end, and sets an ALARM-mode line from its owner's summary. A CONTACT-DRIVE drives
the line. -/
def Obligations.ContactRequestsSetAndDriveTheLine : Prop :=
  ∀ (h : ReqHead) (line : Nat) (s : State),
    (∀ owner mode threshold, UnderPartLock (.contactSet h line owner mode threshold) h .contactSet s <|
      let x : Instr := .contactSet h line owner mode threshold
      (16 ≤ line ∨ (∃ k, owner = some k ∧ 8 ≤ k) ∨ 4 ≤ threshold → exec x s = .next (s.refusedWith h .contactSet .range)) ∧
      ∀ (l : Fin 16) (o : Option (Fin 8)) (closed : Bool), line = l.val → owner = o.map (·.val) → threshold ≤ 3 →
        (closed = true ↔ mode = .alarm ∧ ∃ n lv, o = some n ∧ s.screens[n].mon.summary = some lv ∧ lv ≤ threshold) →
        exec x s = .next ((s.modLine l fun _ => { owner := o, mode, threshold, closed, pulseEnd := none }).answered
          h .contactSet [])) ∧
    ∀ d, UnderScreenLock (.contactDrive h line d) h .contactDrive s fun n =>
      let badPulse := ∃ ms, d = .pulse ms ∧ (ms = 0 ∨ 10001 ≤ ms)
      (16 ≤ line ∨ badPulse → exec (.contactDrive h line d) s = .next (s.refusedWith h .contactDrive .range)) ∧
      ∀ l : Fin 16, line = l.val → ¬badPulse →
        (s.lines[l].owner ≠ some n ∨ s.lines[l].mode ≠ .cue →
          exec (.contactDrive h line d) s = .next (s.refusedWith h .contactDrive .state)) ∧
        (s.lines[l].owner = some n → s.lines[l].mode = .cue → ∃ u, DriveEffect l d s u ∧
          exec (.contactDrive h line d) s = .next (u.answered h .contactDrive []))

/-! ### Requests on notices -/

/-- NOTICE-DONE (R164): an empty stack, or a carried tag other than the top entry's, is refused with REFUSED-STATE. Otherwise the
top entry is removed, the ceiling is the one it saved, and where its source is a still pending alarm with level 0 recorded the
noticed mark is cleared; the reply gives the entry's tag, and nothing else changes. -/
def Obligations.NoticeDoneRestoresTheCeiling : Prop :=
  ∀ (h : ReqHead) (tag : Option Word) (s : State), UnderScreenLock (.noticeDone h tag) h .noticeDone s fun n =>
    (s.screens[n].notice.stack = [] → exec (.noticeDone h tag) s = .next (s.refusedWith h .noticeDone .state)) ∧
    ∀ e rest, s.screens[n].notice.stack = e :: rest →
      ((∃ w, tag = some w ∧ w ≠ e.tag) → exec (.noticeDone h tag) s = .next (s.refusedWith h .noticeDone .state)) ∧
      (tag = none ∨ tag = some e.tag → exec (.noticeDone h tag) s = .next ((s.modScreen n fun x =>
        { x with notice := { x.notice with stack := rest, ceiling := e.saved }
                 mon := { x.mon with pending := Vector.ofFn fun id =>
                   if e.source = .alarm id ∧ e.level = 0 ∧ x.mon.pending[id].isSome = true then some false
                   else x.mon.pending[id] } }).answered h .noticeDone [e.tag]))

/-- NOTICE-ROUTE in both forms (R166, R167, R171, R178). The screen form is a changing request under the part lock: a port above 11,
a G above 15 or a W outside 1 to 8 is refused with REFUSED-RANGE; otherwise the route is replaced, G and W being 1 and 1 where left
out. Where the port or the node changes, or a route is made absent, a waiting notice is discarded and counted lost, and the screen
leaves the old port's requesters: its remaining count there is 0, and it is none's place as last guaranteed grant or rotation
holder, a holder that leaves taking the burst count with it (0: assumption log 30). In the port form a port above 11, a G above 15,
a W outside 1 to 8 or a T outside 1 to 255 is refused with REFUSED-RANGE; otherwise the next interval, the response queue's G and
its W are stored. -/
def Obligations.NoticeRoutesAreReplacedAndStored : Prop :=
  (∀ (h : ReqHead) (route : Option RouteOperand) (s : State), s.takes h → ∀ n : Fin 8, h.screen.toNat = n.val →
     let x : Instr := .noticeRouteScreen h route
     let share (r : RouteOperand) : Nat × Nat := r.share.getD (1, 1)
     let inRange (r : RouteOperand) : Prop := r.port ≤ 11 ∧ (share r).1 ≤ 15 ∧ 1 ≤ (share r).2 ∧ (share r).2 ≤ 8
     let old := s.screens[n].ctx.route
     let loses (u : NoticeUnit) : NoticeUnit :=
       if ∃ y, u.unsent = some y ∧ y.sending = false then { u with unsent := none, lost := oneMore u.lost } else u
     let leaves (a : Arbiter) : Arbiter :=
       { a with screenLeft := a.screenLeft.set n.val 0
                lastGranted := if a.lastGranted = some (.screen n) then none else a.lastGranted
                holder := if a.holder = some (.screen n) then none else a.holder
                burst := if a.holder = some (.screen n) then 0 else a.burst }
     (heldByAnother s.partLock h.source → exec x s = .next (s.refusedWith h .noticeRouteScreen .locked)) ∧
     (¬heldByAnother s.partLock h.source →
       (∀ r, route = some r → ¬inRange r → exec x s = .next (s.refusedWith h .noticeRouteScreen .range)) ∧
       ∀ new : Option Route,
         (route = none ∧ new = none) ∨
           (∃ r y, route = some r ∧ new = some y ∧ inRange r ∧ y.port.val = r.port ∧ y.node = r.node ∧
             y.count = (share r).1 ∧ y.weight = (share r).2) →
         let t := s.modCtx n fun c => { c with route := new }
         ((old.map fun y => (y.port, y.node)) = (new.map fun y => (y.port, y.node)) →
           exec x s = .next (t.answered h .noticeRouteScreen [])) ∧
         ((old.map fun y => (y.port, y.node)) ≠ (new.map fun y => (y.port, y.node)) →
           (old = none → exec x s = .next ((t.modNotice n loses).answered h .noticeRouteScreen [])) ∧
           ∀ y, old = some y → exec x s = .next (((t.modNotice n loses).modArb y.port leaves).answered h .noticeRouteScreen [])))) ∧
  ∀ (h : ReqHead) (port count weight interval : Nat) (s : State),
    UnderPartLock (.noticeRoutePort h port count weight interval) h .noticeRoutePort s <|
      let x : Instr := .noticeRoutePort h port count weight interval
      (12 ≤ port ∨ 16 ≤ count ∨ weight = 0 ∨ 9 ≤ weight ∨ interval = 0 ∨ 256 ≤ interval →
        exec x s = .next (s.refusedWith h .noticeRoutePort .range)) ∧
      ∀ p : Fin 12, port = p.val → count ≤ 15 → 1 ≤ weight → weight ≤ 8 → 1 ≤ interval → interval ≤ 255 →
        exec x s = .next ((s.modArb p fun a =>
          { a with nextInterval := interval, respCount := count, respWeight := weight }).answered h .noticeRoutePort [])

/-! ### Frames that arrive -/

/-- Frames at a port that is not LOCKED (R1, R2, R5 to R7, R21). A DOWN port ignores every frame. In HUNT, LOST and HOLDOVER a GOOD
frame lengthens the good-frame run, and the fourth enters LOCKED: its slots are the concealment register, the buffer is empty, the
runs are 0, a relock from LOST or a recovery from HOLDOVER is counted, and the screens hear of it. In BREAK a GOOD frame enters HUNT
with a run of 1. A MISPLACED frame begins a new run; a CHECK ERROR, STOP or MISS frame ends the run and discards the expected index.
In HOLDOVER alone a CHECK ERROR is counted and captured, and a MISS or MISPLACED frame captured. The eighth STOP frame in a row
enters BREAK, which the screens hear. The captured index of a CHECK ERROR is the expected index (assumption log 20), or a free value
where none is expected (assumption log 6). -/
def Obligations.SeekingPortsCountTheirRuns : Prop :=
  ∀ (p : Fin 12) (f : LinkFrame 16) (e : Nat) (s : State), s.powered = true →
    let x := s.ports[p]
    let seeking := x.state = .hunt ∨ x.state = .lost ∨ x.state = .holdover
    let good := GoodFrame f e ∧ (x.expected = some e ∨ (x.expected = none ∧ e ≤ 47)) ∧ headerCode f.header = .idle
    let next := some ((e + 1) % 48)
    let held (c : Option Capture) : Option Capture := if x.state = .holdover then c else x.capture
    (x.state = .down → exec (.programFrameArrival p f) s = .next s) ∧
    (seeking → good → x.goodRun ≤ 2 → exec (.programFrameArrival p f) s =
      .next (s.modPort p fun x => { x with goodRun := x.goodRun + 1, expected := next, stopRun := 0 })) ∧
    (seeking → good → x.goodRun = 3 →
      let t := s.modPort p fun x =>
        { x with state := .locked, goodRun := 0, missRun := 0, stopRun := 0, expected := next, window := none
                 holdoverLeft := 0, buffer := [], started := false, lastFrame := none, conceal := f.slots
                 attempt := none, base := none, badRun := 0, lostRaised := false
                 counters := { x.counters with
                   relocks := if x.state = .lost then oneMore x.counters.relocks else x.counters.relocks
                   recoveries := if x.state = .holdover then oneMore x.counters.recoveries else x.counters.recoveries } }
      exec (.programFrameArrival p f) s =
        .next { t with screens := Vector.ofFn fun n => afterLocked t.ports p t.screens[n] }) ∧
    (x.state = .brk → good → exec (.programFrameArrival p f) s =
      .next (s.modPort p fun x => { x with state := .hunt, goodRun := 1, stopRun := 0, expected := next })) ∧
    (seeking ∨ x.state = .brk → x.assembly = none →
      (∀ i, GoodFrame f e → x.expected = some i → e ≠ i → exec (.programFrameArrival p f) s = .next (s.modPort p fun x =>
        { x with goodRun := 1, stopRun := 0, expected := next, capture := held (offered x .sync (some e) s.blockCounter) })) ∧
      (MissFrame f ∨ (GoodFrame f e ∧ x.expected = none ∧ 48 ≤ e) → exec (.programFrameArrival p f) s = .next (s.modPort p fun x =>
        { x with goodRun := 0, stopRun := 0, expected := none, capture := held (offered x .sync x.expected s.blockCounter) })) ∧
      (BadCheckFrame f → exec (.programFrameArrival p f) s = .next { s.modPort p fun x =>
        { x with goodRun := 0, stopRun := 0, expected := none
                 counters := { x.counters with
                   checkErrors := if x.state = .holdover then oneMore x.counters.checkErrors else x.counters.checkErrors }
                 capture := held (offered x .check (if x.expected = none then Config.freeIndex s.freeCount else x.expected)
                   s.blockCounter) }
        with freeCount := if x.expected = none then s.freeCount + 1 else s.freeCount })) ∧
    (StopFrame f → headerCode f.header = .idle →
      ((seeking ∧ x.stopRun ≤ 6) ∨ x.state = .brk → exec (.programFrameArrival p f) s = .next (s.modPort p fun x =>
        { x with goodRun := 0, expected := none, stopRun := min 8 (x.stopRun + 1) })) ∧
      (seeking → x.stopRun = 7 → ∃ t, exec (.programFrameArrival p f) s = .next t ∧
        HearsBreak p (s.modPort p fun x =>
          { x with state := .brk, goodRun := 0, expected := none, stopRun := 8, holdoverLeft := 0
                   counters := { x.counters with stopEntries := oneMore x.counters.stopEntries } }) t))

/-- Frames at a LOCKED port that do not complete its descriptor attempt (R1, R3, R4, R9, R11, R14). A GOOD frame is written to the
elastic buffer and to the concealment register; a CHECK ERROR frame that is no fast drop is counted, captured and concealed with
that register, and opens or counts in the fast-drop window; a STOP frame below the eighth writes zeros. Each ends the sync-miss
run. Each gives the attempt the byte of its index, known from a GOOD frame alone: index 0 begins an attempt, and none is under way
where index 11 leaves none. Any of the three, written to a full buffer, drops the oldest entry and counts one slip, which each
screen with the port in use hears as one occurrence of SLIP (R113). Nothing else changes. The captured index of a CHECK ERROR, the
expected one, is assumption log 20's choice. -/
def Obligations.LockedFramesFillTheBuffer : Prop :=
  ∀ (p : Fin 12) (f : LinkFrame 16) (e : Nat) (s : State), s.powered = true →
    let x := s.ports[p]
    let lands (y : Port) : Prop :=
      (x.buffer.length ≤ 31 → exec (.programFrameArrival p f) s = .next (s.modPort p fun _ => y)) ∧
      (32 ≤ x.buffer.length → ∃ t, exec (.programFrameArrival p f) s = .next t ∧ HearsSlip p (s.modPort p fun _ => y) t)
    x.state = .locked → x.expected = some e → (e ≠ 11 ∨ x.attempt = none) →
    (GoodFrame f e → headerCode f.header = .idle →
      lands (buffered f.slots { x with missRun := 0, stopRun := 0, expected := some ((e + 1) % 48), conceal := f.slots
                                       attempt := notedByte e (some (headerByte f.header)) x })) ∧
    (BadCheckFrame f → x.assembly = none → (x.settings.dropEnable = true → (widened x).count < x.settings.dropCount) →
      lands { afterCheckError e s.blockCounter x with attempt := notedByte e none x }) ∧
    (StopFrame f → headerCode f.header = .idle → x.stopRun ≤ 6 → lands { afterStop e x with attempt := notedByte e none x })

/-- Sync misses at a LOCKED port and its exits at an arriving frame, no message being under assembly (R3, R5, R6, R9, R10, R21,
R172). The third MISS or MISPLACED frame in a row enters HOLDOVER with the holdover time, or LOST where that time is 0; a check
error that brings the fast-drop window to its count enters LOST and is counted; the eighth STOP frame enters BREAK, which the
screens hear, and is counted. Every exit empties the buffer, closes the window, clears the descriptor attempt and the good-frame
run and abandons a message being sent; an error is captured; an entry to LOST is announced. Fewer misses lengthen the run, and a
MISS gives an attempt under way an unknown byte (R14); a frame that completes the attempt is not this statement's. That the
sync-miss run stands at 3 after the third miss, and that a CHECK ERROR is captured at the expected index, are assumption log 20's;
at a check error and a STOP frame the run is 0 (R3). -/
def Obligations.MissesFastDropsAndStopsLeaveLocked : Prop :=
  ∀ (p : Fin 12) (f : LinkFrame 16) (e : Nat) (s : State), s.powered = true →
    let x := s.ports[p]
    let lost (t : State) : State := { t with screens := Vector.ofFn fun n => afterLost p t.screens[n] }
    let misses (index : Nat) (next : Nat) (still : Prop) (attempt : Option (List (Option Byte))) : Prop :=
      (x.missRun ≤ 1 → still → exec (.programFrameArrival p f) s = .next (s.modPort p fun x =>
        { afterMiss index next s.blockCounter x with attempt := attempt })) ∧
      (x.missRun = 2 →
        let t := (s.modPort p fun x =>
          { outOfLock (if x.settings.holdover = 0 then .lost else .holdover) x.settings.holdover x with
            missRun := 3, stopRun := 0, capture := offered x .sync (some index) s.blockCounter }).abandonMessage p
        exec (.programFrameArrival p f) s = .next (if x.settings.holdover = 0 then lost t else t))
    x.state = .locked → x.expected = some e → x.assembly = none →
    (MissFrame f → misses e ((e + 1) % 48) (e ≠ 11 ∨ x.attempt = none) (notedByte e none x)) ∧
    (∀ k, GoodFrame f k → k ≠ e → misses k ((k + 1) % 48) (12 ≤ e ∨ (1 ≤ e ∧ x.attempt = none)) x.attempt) ∧
    (BadCheckFrame f → x.settings.dropEnable = true → x.settings.dropCount ≤ (widened x).count →
      exec (.programFrameArrival p f) s = .next (lost ((s.modPort p fun x =>
        { outOfLock .lost 0 x with
          missRun := 0, stopRun := 0, capture := offered x .check (some e) s.blockCounter
          counters := { x.counters with checkErrors := oneMore x.counters.checkErrors
                                        fastDrops := oneMore x.counters.fastDrops } }).abandonMessage p))) ∧
    (StopFrame f → headerCode f.header = .idle → x.stopRun = 7 → ∃ t, exec (.programFrameArrival p f) s = .next t ∧
      HearsBreak p ((s.modPort p fun x =>
        { outOfLock .brk 0 x with
          missRun := 0, stopRun := 8
          counters := { x.counters with stopEntries := oneMore x.counters.stopEntries } }).abandonMessage p) t)

/-- The twelfth header byte of a good descriptor with POSITION-VALID at a LOCKED port (R14, R15, R49, R54, R56, R57, R59), where the
port is the active source of screen `n` alone, RUNNING with cue ids that differ, and the position is one above the last evaluated.
The port takes the descriptor as its inference base and last good position. The screen takes program id, position and tag; every
eligible ARMED cue at or below the position, or with its load-due mark set, is FIRED with an outcome; every other cue keeps its
state and outcome, and the load-due mark of an eligible cue is cleared (R138, R141, R142). -/
def Obligations.PositionUpdateFiresTheDueCues : Prop :=
  ∀ (p : Fin 12) (n : Fin 8) (f : LinkFrame 16) (bytes : List Byte) (u : Update) (q : Long) (s : State), s.powered = true →
    let x := s.ports[p]
    let c := s.screens[n].ctx
    x.state = .locked → x.expected = some 11 → GoodFrame f 11 → headerCode f.header = .idle → x.buffer.length ≤ 31 →
    bytes.length = 11 → x.attempt = some (bytes.map some) →
    parseDescriptor (bytes ++ [headerByte f.header]) = some u → u.posValid = true →
    (∀ m : Fin 8, s.screens[m].ctx.activePort = some p ↔ m = n) → c.state = .running → (c.follow = true → u.play = true) →
    c.lastProgram = some u.program → c.lastPosition = some q → u.position.toNat = q.toNat + 1 →
    CueListSafe s.screens[n].cues →
    let eligible (k : Cue) : Prop := k.program = 0 ∨ k.program = u.program
    let due (k : Cue) : Prop :=
      eligible k ∧ k.state = .armed ∧ (k.loadDue = true ∨ k.trigger.toNat ≤ u.position.toNat)
    ∃ t, exec (.programFrameArrival p f) s = .next t ∧
      t.ports[p].base = some u ∧ t.ports[p].badRun = 0 ∧ t.ports[p].lastGood = some u.position ∧
      t.ports[p].attempt = none ∧ t.ports[p].state = .locked ∧
      t.screens[n].ctx.lastProgram = some u.program ∧ t.screens[n].ctx.lastPosition = some u.position ∧
      t.screens[n].ctx.positionLost = false ∧ t.screens[n].ctx.descTag = some u.tag ∧
      t.screens[n].cues.length = s.screens[n].cues.length ∧
      (∀ (i : Nat) (k k' : Cue), s.screens[n].cues[i]? = some k → t.screens[n].cues[i]? = some k' →
        k' = { k with state := k'.state, outcome := k'.outcome, loadDue := k'.loadDue } ∧
        (due k → k'.state = .fired ∧ k'.outcome.isSome = true) ∧
        (¬due k → k'.state = k.state ∧ k'.outcome = k.outcome) ∧
        (eligible k → k'.loadDue = false) ∧ (¬eligible k → k'.loadDue = k.loadDue)) ∧
      ∀ m : Fin 8, m ≠ n → t.screens[m] = s.screens[m]

/-- Every good descriptor with POSITION-VALID at a LOCKED port that is the port in use of screen `n` alone, with cue ids that differ
(R14, R15, R48, R54, R56, R57, R59, R139 to R141). The port takes it as its inference base and last good position, and the screen
takes the update: in DARK nothing; a start or a stop by follow-source first; in STANDBY the program id, position and tag; in RUNNING
the cues as the classification has it (NEW PROGRAM, STEP, FORWARD JUMP, BACKWARD JUMP), in list order, each MISSED cue raising one
occurrence of CUE. Nothing else changes. -/
def Obligations.PositionUpdatesReachTheirScreen : Prop :=
  ∀ (p : Fin 12) (n : Fin 8) (f : LinkFrame 16) (u : Update) (s : State), s.powered = true → GoodDescriptor p n f u s →
    u.posValid = true → CueListSafe s.screens[n].cues → ∃ t, exec (.programFrameArrival p f) s = .next t ∧
      TakesUpdate n u (s.modPort p fun x =>
        { afterLastByte f x with base := some u, badRun := 0, lastGood := some u.position, lostRaised := false }) t

/-- Descriptors that give no position, at a LOCKED port that is the port in use of screen `n` alone, with cue ids that differ (R14
to R16, R48, R54, R58). A bad one is captured with kind DESCRIPTOR and lengthens the bad-descriptor run, up to 9. With a base and
a run of 1 to 8 it raises an inferred update of the base position plus 1, a free value past the top of the range (assumption log
7), which is the base's new position. At a run of 9, or with no base where position lost has not been raised, position lost is
raised with no fields, and the base is absent. A good descriptor with POSITION-VALID clear raises position lost with its fields:
the screen takes its tag, and with follow-source on its PLAY, where clear, stops a RUNNING screen. Position lost sets the screen's
flag, but in DARK. That a CHECK ERROR and a MISPLACED frame are first captured with the expected index and with their own is
assumption log 20's. That CHECK or SYNC is offered to the capture record before DESCRIPTOR within one frame is assumption log 5's,
and that position lost with fields acts also where the flag is already set assumption log 32's. -/
def Obligations.DescriptorsInferOrLosePosition : Prop :=
  ∀ (p : Fin 12) (n : Fin 8) (f : LinkFrame 16) (s : State), s.powered = true →
    let x := s.ports[p]
    let c := s.screens[n].ctx
    let goes (t : State) : Prop := exec (.programFrameArrival p f) s = .next t
    let lose (t : State) : State := if c.state = .dark then t else t.modCtx n fun c => { c with positionLost := true }
    CueListSafe s.screens[n].cues → (∀ m : Fin 8, s.screens[m].ctx.activePort = some p ↔ m = n) →
    (∀ i y, BadAttempt f s.blockCounter x i y →
      let bad : Port :=
        { y with badRun := min 9 (y.badRun + 1), capture := offered y .descriptor (some i) s.blockCounter }
      let left (z : Port) : State := s.modPort p fun _ => z
      (∀ b, x.base = some b → x.badRun ≤ 7 →
        let u : Update :=
          { b with position := if b.position.toNat = 2 ^ 32 - 1 then Config.freePosition s.freeCount else b.position + 1
                   inferred := true }
        ∃ t, goes t ∧ TakesUpdate n u { left { bad with base := some u } with freeCount := s.freeCount + 1 } t) ∧
      ((x.base.isSome = true ∧ 8 ≤ x.badRun) ∨ (x.base = none ∧ x.lostRaised = false) →
        goes (lose (left { bad with base := none, lostRaised := true }))) ∧
      (x.base = none → x.lostRaised = true → goes (left bad))) ∧
    ∀ u, GoodDescriptor p n f u s → u.posValid = false →
      let t := s.modPort p fun x => { afterLastByte f x with base := none, badRun := 0, lostRaised := true }
      let lost (c : Context) : Context := { c with positionLost := true, descTag := some u.tag }
      (c.state = .dark → goes t) ∧
      (c.state = .running → c.follow = true → u.play = false → ∃ v, Stopped n t v ∧ goes (v.modCtx n lost)) ∧
      (c.state ≠ .dark → ¬(c.state = .running ∧ c.follow = true ∧ u.play = false) → goes (t.modCtx n lost))

/-- The steps of the service assembler at a port in any state but DOWN, whatever else its frame does (R17, R18, R19, R21). A GOOD
or STOP frame acts as the same frame with IDLE does, which leaves the assembly as it is, and then by its service code. START
begins a message with its word, and abandons an earlier one; a DATA word is appended, and one past 63 makes the message too long;
a message that END leaves with fewer than four words or a bad check is discarded, and one for another node counted alone; a stray
DATA or END is ignored. A CHECK ERROR, MISS or MISPLACED frame abandons the message, and otherwise acts as with none. At an
uncommanded boundary that is a service tick, the first after START is counted and the second times the message out. The carried
index that is captured where a GOOD or STOP frame discards a message, or a MISPLACED frame abandons one, is assumption log 20's,
and a CHECK ERROR's where none is expected a free value (assumption log 6). That the frame's link and descriptor work, with its
own captures, comes before the assembler's SERVICE capture is assumption log 5's. -/
def Obligations.ServiceWordsAreAssembled : Prop :=
  (∀ (p : Fin 12) (f g : LinkFrame 16) (s : State), s.powered = true → s.ports[p].state ≠ .down →
    CarriesWord f s.ports[p] → IdleTwin f g →
    ∃ u, exec (.programFrameArrival p g) s = .next u ∧ u.ports[p].assembly = s.ports[p].assembly ∧
      let goes (change : Port → Port) : Prop := exec (.programFrameArrival p f) s = .next (u.modPort p change)
      let begun (y : Port) : Port :=
        { y with assembly := some { words := [f.service], source := f.service.extractLsb' 0 8, ticks := 0 } }
      let dropped := discarded (some (headerIndex f.header)) s.blockCounter
      (headerCode f.header = .start →
        (s.ports[p].assembly = none → goes begun) ∧ (s.ports[p].assembly.isSome = true → goes fun y => begun (dropped y))) ∧
      (headerCode f.header = .data ∨ headerCode f.header = .fin → s.ports[p].assembly = none → goes fun y => y) ∧
      ∀ a, s.ports[p].assembly = some a →
        (headerCode f.header = .data →
          (a.words.length ≤ 62 → goes fun y => { y with assembly := some { a with words := a.words ++ [f.service] } }) ∧
          (63 ≤ a.words.length → goes dropped)) ∧
        (headerCode f.header = .fin →
          (a.words.length ≤ 2 ∨ messageCheck a.words ≠ f.service → goes dropped) ∧
          ∀ first rest, a.words = first :: rest → 3 ≤ a.words.length → messageCheck a.words = f.service →
            first.extractLsb' 8 8 ≠ s.node → goes fun y =>
              { y with assembly := none, counters := { y.counters with discarded := oneMore y.counters.discarded } })) ∧
  (∀ (p : Fin 12) (f : LinkFrame 16) (index : Option Nat) (s : State), s.powered = true → s.ports[p].state ≠ .down →
    s.ports[p].assembly.isSome = true → Abandons f (Config.freeIndex s.freeCount) s.ports[p] index →
    ∃ u, exec (.programFrameArrival p f) (s.modPort p fun x => { x with assembly := none }) = .next u ∧
      exec (.programFrameArrival p f) s = .next (u.modPort p (discarded index s.blockCounter))) ∧
  ∀ s : State, s.powered = true → s.resetPending = none → s.taken = [] → ∃ t, exec .masterBlockBoundary s = .next t ∧
    ∀ (p : Fin 12) (a : Assembly), s.ports[p].assembly = some a →
      let x := s.ports[p]
      let y := t.ports[p]
      let tick := (s.blockCounter + 1).toNat % 16 = 0
      let kept := y.counters = x.counters ∧ y.capture = x.capture ∧ y.lastTimedOut = x.lastTimedOut
      (¬tick → y.assembly = some a ∧ kept) ∧ (tick → a.ticks = 0 → y.assembly = some { a with ticks := 1 } ∧ kept) ∧
      (tick → 1 ≤ a.ticks → y.assembly = none ∧ y.lastTimedOut = some a.source ∧
        y.counters = { x.counters with discarded := oneMore x.counters.discarded } ∧
        y.capture = offered x .service none (s.blockCounter + 1))

/-- The END word of a message at a LOCKED port whose expected index is 12 or above (R17, R19, R176, R177, R193). A message of
fewer than four words, or with a bad check, is counted as discarded and captured; one for another node is counted alone. One for
this node is taken as the request its words spell: SCREEN-SOURCE, FADE, LOCK-FREE, EQ-READ and a CUE-LOAD of a FADE are given here
as examples (every kind is in `PayloadWordsSpellTheOperands`), whose choice words are assumption logs 13 and 28's (a flag named
clear first is 0 where clear; EQ-READ's forms on a screen are 0 and 1); a payload that does not hold the operands is refused with
REFUSED-RANGE; a message with the response mark, or of a kind 40, is an unknown request. -/
def Obligations.ServiceMessagesReachTheirRequest : Prop :=
  ∀ (p : Fin 12) (f : LinkFrame 16) (e : Nat) (a : Assembly) (s : State), s.powered = true →
    let x := s.ports[p]
    let words := a.words ++ [f.service]
    let t := s.modPort p fun x =>
      { x with missRun := 0, stopRun := 0, expected := some ((e + 1) % 48), conceal := f.slots, buffer := x.buffer ++ [f.slots]
               started := x.started || decide (15 ≤ x.buffer.length), assembly := none }
    x.state = .locked → x.expected = some e → 12 ≤ e → GoodFrame f e → headerCode f.header = .fin → x.buffer.length ≤ 31 →
    x.assembly = some a →
    (words.length ≤ 3 ∨ messageCheck a.words ≠ f.service → exec (.programFrameArrival p f) s = .next (t.modPort p fun y =>
      { y with counters := { y.counters with discarded := oneMore y.counters.discarded }
               capture := offered y .service (some e) s.blockCounter })) ∧
    (4 ≤ words.length → messageCheck a.words = f.service →
      ∀ (destination source : Byte) (response : Bool) (kind : BitVec 11) (screen : BitVec 4) (tag : Word) (payload : List Word),
        a.words = (destination ++ source) :: (BitVec.ofBool response ++ kind ++ screen) :: tag :: payload →
        let h : ReqHead := { port := p, source, tag, screen }
        (destination ≠ s.node → exec (.programFrameArrival p f) s = .next (t.modPort p fun y =>
          { y with counters := { y.counters with discarded := oneMore y.counters.discarded } })) ∧
        (destination = s.node →
          (response = true ∨ kind = 0 ∨ kind = 40 →
            exec (.programFrameArrival p f) s = exec (.unknownRequest h kind response) t) ∧
          (response = false → kind = 12 →
            (payload = [0] → exec (.programFrameArrival p f) s = exec (.screenSource h .primary) t) ∧
            (payload = [1] → exec (.programFrameArrival p f) s = exec (.screenSource h .alternate) t) ∧
            (payload = [] ∨ payload = [2] → s.takes h → (∃ n : Fin 8, screen.toNat = n.val ∧ s.screenLocks[n] = 0) →
              exec (.programFrameArrival p f) s = .next (t.refusedWith h .screenSource .range))) ∧
          (response = false → kind = 23 → ∀ T D : Word, payload = [T, D] →
            exec (.programFrameArrival p f) s = exec (.fade h T.toNat D.toNat) t) ∧
          (response = false → kind = 4 →
            (payload = [0] → exec (.programFrameArrival p f) s = exec (.lockFree h false) t) ∧
            (payload = [1] → exec (.programFrameArrival p f) s = exec (.lockFree h true) t)) ∧
          (response = false → kind = 21 →
            (∀ part : Word, screen = 15 → payload = [part] →
              exec (.programFrameArrival p f) s = exec (.eqRead h .part part.toNat) t) ∧
            (∀ part : Word, screen.toNat ≤ 7 → payload = [0, part] →
              exec (.programFrameArrival p f) s = exec (.eqRead h .screen part.toNat) t) ∧
            ∀ channel first part : Word, screen.toNat ≤ 7 →
              (payload = [1, 0, channel, first, part] → exec (.programFrameArrival p f) s =
                exec (.eqRead h (.channel .a channel.toNat first.toNat) part.toNat) t) ∧
              (payload = [1, 1, channel, first, part] → exec (.programFrameArrival p f) s =
                exec (.eqRead h (.channel .b channel.toNat first.toNat) part.toNat) t)) ∧
          (response = false → kind = 30 → ∀ (id p1 p0 q1 q0 T D : Word) (behind early : Bool),
            payload = [id, p1, p0, q1, q0, 1, T, D, if behind then 0 else 1, if early then 1 else 0] →
            exec (.programFrameArrival p f) s = exec (.cueLoad h
              { id := id.toNat, program := p1 ++ p0, trigger := q1 ++ q0, action := .fade T.toNat D.toNat, catchUp := behind
                fireIfDue := early }) t)))

/-- Every request of the catalogue as words (R17, R19, R179, R193, section 9.6). A message for this node whose words are the
request's source node, kind, screen number, tag and operands in catalogue order, at most 60 of them, closed by its check, is taken
at its END word, in a GOOD or STOP frame at a port that is not DOWN: what follows is what the request's command does, after what
the same frame with IDLE does. The operands' values are those that the words can hold. Words of flags are assumption log 13's, a
role among the sixteen or none log 15's, EQ-READ's form word log 28's, and EQ-LOAD SECTIONS with six sections, above 60 words, log
14's. That the request acts after the same frame's link and descriptor work is assumption log 5's. FORMAT-READ's row index and
matrix as one optional item are assumption log 10's. -/
def Obligations.PayloadWordsSpellTheOperands : Prop :=
  ∀ (p : Fin 12) (f g : LinkFrame 16) (a : Assembly) (c : Instr) (h : ReqHead) (k : ReqKind) (s : State), s.powered = true →
    s.ports[p].state ≠ .down → CarriesWord f s.ports[p] → IdleTwin f g → headerCode f.header = .fin →
    s.ports[p].assembly = some a → requestOf c = some (h, k) → c.wf = true → h.port = p → (operandWords c).length ≤ 60 →
    a.words = (s.node ++ h.source) :: (0#1 ++ k.number ++ h.screen) :: h.tag :: operandWords c →
    messageCheck a.words = f.service →
    ∃ u, exec (.programFrameArrival p g) s = .next u ∧
      exec (.programFrameArrival p f) s = exec c (u.modPort p fun y => { y with assembly := none })

/-- Return frames at a screen port (R30 to R34, R36, R37). In HUNT the fourth GOOD frame in a row enters EXCHANGE with the timer
at 250; fewer only lengthen the run, a MISPLACED frame begins it anew, and a MISS or CHECK ERROR ends it. In EXCHANGE and UP the
third MISS (which a stop sync also is) or MISPLACED frame in a row enters HUNT and counts one link drop; a GOOD or CHECK ERROR
frame ends the run. Index 0 begins a page attempt; the slots of indices 0 to 3 are known from GOOD frames alone; a MISPLACED frame
there ends it as a bad page, and so does an unknown slot, a bad check or a bad kind at index 3: a bad page changes nothing else. A
good page whose fourth slot arrives and whose toggle is new is accepted (the sync-miss run 0 at an entry to HUNT is assumption log
20's): an IDENT page in EXCHANGE gives the rack identity; a CHANNELS page after one gives the channel states and, where marked
LAST, enters UP; in UP it gives the channel states, and an IDENT page enters EXCHANGE again with every state ABSENT. A page with
the old toggle changes nothing. -/
def Obligations.RackFramesLockAndCarryPages : Prop :=
  ∀ (n : Fin 8) (f : LinkFrame 1) (e : Nat) (s : State), s.powered = true →
    let x := s.screens[n].link
    let goes (y : ScreenPort) : Prop := exec (.rackFrameArrival n f) s = .next (s.modLink n fun _ => y)
    let good := GoodFrame f e ∧ (x.expected = some e ∨ (x.expected = none ∧ e ≤ 47))
    let miss := headerSync f.header ≠ 0xA7 ∨ (GoodFrame f e ∧ x.expected = none ∧ 48 ≤ e)
    let misplaced := ∃ i, GoodFrame f e ∧ x.expected = some i ∧ e ≠ i
    let next := some ((e + 1) % 48)
    (x.link = .hunt →
      (good → x.goodRun ≤ 2 → goes { x with goodRun := x.goodRun + 1, expected := next }) ∧
      (good → x.goodRun = 3 →
        goes { x with link := .exchange, goodRun := 0, missRun := 0, expected := next, attempt := none, echo := false
                      lastToggle := false, identSeen := false, timer := 250 }) ∧
      (misplaced → goes { x with goodRun := 1, expected := next }) ∧
      (miss ∨ BadCheckFrame f → goes { x with goodRun := 0, expected := none })) ∧
    (x.link ≠ .hunt → miss ∨ misplaced → 2 ≤ x.missRun → goes { huntLink x with linkDrops := oneMore x.linkDrops }) ∧
    (x.link ≠ .hunt → ∀ i, x.expected = some i →
      let after := some ((i + 1) % 48)
      let noted (slot : Option Slot) : Option (List (Option Slot)) :=
        if i = 0 then some [slot] else if i ≤ 2 then x.attempt.map fun l => l ++ [slot] else if i = 3 then none else x.attempt
      (headerSync f.header ≠ 0xA7 → x.missRun ≤ 1 →
        goes { x with missRun := x.missRun + 1, expected := after, attempt := noted none }) ∧
      (misplaced → x.missRun ≤ 1 →
        goes { x with missRun := x.missRun + 1, expected := next, attempt := if i ≤ 3 then none else x.attempt }) ∧
      (BadCheckFrame f → goes { x with missRun := 0, expected := after, attempt := noted none }) ∧
      (GoodFrame f i → i ≠ 3 → goes { x with missRun := 0, expected := after, attempt := noted (some f.slots[0]) }) ∧
      (GoodFrame f i → i = 3 →
        (∀ l : List Slot, x.attempt = some (l.map some) → parsePage (l ++ [f.slots[0]]) = none) →
        goes { x with missRun := 0, expected := some 4, attempt := none })) ∧
    ∀ (a b c : Slot) (pg : Page), x.link ≠ .hunt → GoodFrame f 3 → x.expected = some 3 →
      x.attempt = some [some a, some b, some c] → parsePage [a, b, c, f.slots[0]] = some pg →
      let heard : ScreenPort := { x with missRun := 0, expected := some 4, attempt := none }
      let accepted : ScreenPort := { heard with echo := pg.toggle, lastToggle := pg.toggle }
      (pg.toggle = x.lastToggle → goes heard) ∧
      (pg.toggle ≠ x.lastToggle →
        (∀ rack count, x.link = .exchange → pg.content = .ident rack count → 1 ≤ count → count ≤ 16 →
          goes { accepted with rackId := some rack, channelCount := some count, identSeen := true, timer := 250 }) ∧
        (∀ rack count, pg.content = .ident rack count → (count = 0 ∨ 17 ≤ count) → goes heard) ∧
        (∀ states, x.link = .exchange → pg.content = .channels states → x.identSeen = false → goes heard) ∧
        (∀ states, x.link = .exchange → pg.content = .channels states → x.identSeen = true → pg.last = false →
          goes { accepted with stored := states, timer := 250 }) ∧
        (∀ states, x.link = .exchange → pg.content = .channels states → x.identSeen = true → pg.last = true →
          goes { accepted with stored := states, link := .up, timer := 0 }) ∧
        (∀ states, x.link = .up → pg.content = .channels states → goes { accepted with stored := states }) ∧
        (∀ rack count, x.link = .up → pg.content = .ident rack count → 1 ≤ count → count ≤ 16 →
          goes { accepted with rackId := some rack, channelCount := some count, identSeen := true, timer := 250
                               link := .exchange, stored := Vector.replicate 16 .absent }))

/-! ### The master frame and the boundary -/

/-- What every port sends at a master frame (R8, R27, R28, R29, R172, R190), in a part with no reset pending. A program port that
is not DOWN sends a return frame with normal sync, the frame index, its status slot, and the next word of the message on its
channel; a DOWN port sends none. At a LOCKED port whose channel is free, or whose message has all been sent, a message granted in
this frame sends its first word, marked START (R170); here where one requester alone is at the port, the response queue or one
screen's notice, it is granted. A screen port sends a forward frame with the frame index, a stop sync and zeros in DARK, a normal
sync and the screen's outputs otherwise, and in frame 0 the echo toggle and the screen state in its header byte. The frame index
advances around 48; screen records, cue lists and everything kept by the part as a whole stay. That the status slot shows the
buffer after that frame's read is assumption log 5's choice, the frame index around 48 is assumption log 11's, and the service
word 0 of an IDLE return frame assumption log 29's. -/
def Obligations.MasterFrameSendsOnEveryPort : Prop :=
  ∀ s : State, s.powered = true → s.resetPending = none → s.frameIndex ≤ 47 → ∃ t, exec .masterFrame s = .next t ∧
    t.frameIndex = (s.frameIndex + 1) % 48 ∧
    t = { s with frameIndex := t.frameIndex, ports := t.ports, arbiters := t.arbiters, screens := t.screens
                 lines := t.lines } ∧
    (∀ p : Fin 12, t.ports[p].state = s.ports[p].state ∧
      (s.ports[p].state = .down → t.ports[p].sent = none) ∧
      (s.ports[p].state ≠ .down → ∃ g, t.ports[p].sent = some g ∧ GoodFrame g s.frameIndex ∧
        headerByte g.header = 0 ∧ g.slots[0] = statusSlot t.ports[p] ∧
        (t.arbiters[p].channel = none → headerCode g.header = .idle ∧ g.service = 0) ∧
        ∀ (m : Sending) (w : Word), s.arbiters[p].channel = some m → m.words[m.sent]? = some w → g.service = w ∧
          headerCode g.header = (if m.sent = 0 then .start else if m.sent + 1 = m.words.length then .fin else .data) ∧
          t.arbiters[p].channel = some { m with sent := m.sent + 1 })) ∧
    (∀ p : Fin 12, (∀ m, s.arbiters[p].channel = some m → m.words.length ≤ m.sent) →
      (∀ m w, t.arbiters[p].channel = some m → m.words[0]? = some w → ∃ g, t.ports[p].sent = some g ∧ m.sent = 1 ∧
        g.service = w ∧ headerCode g.header = .start) ∧
      (∀ r rest, s.ports[p].state = .locked → (∀ n : Fin 8, s.screens[n].ctx.route.map (·.port) ≠ some p) → r.words ≠ [] →
        s.arbiters[p].queue = r :: rest → t.arbiters[p].queue = rest ∧
          t.arbiters[p].channel = some { owner := .resp, words := r.words, sent := 1, forReset := r.forReset }) ∧
      ∀ (n : Fin 8) (u : Unsent), s.ports[p].state = .locked → s.arbiters[p].queue = [] →
        (∀ m : Fin 8, s.screens[m].ctx.route.map (·.port) = some p ↔ m = n) → s.screens[n].notice.unsent = some u →
        u.sending = false → u.words ≠ [] → (∀ (q : Fin 12) m, s.arbiters[q].channel = some m → m.owner ≠ .screen n) →
        t.arbiters[p].channel = some { owner := .screen n, words := u.words, sent := 1, forReset := false } ∧
          t.screens[n].notice.unsent = some { u with sending := true }) ∧
    ∀ n : Fin 8, t.screens[n].ctx = s.screens[n].ctx ∧ t.screens[n].cues = s.screens[n].cues ∧
      t.screens[n].quiet = s.screens[n].quiet ∧
      ∃ g, t.screens[n].link = { s.screens[n].link with sent := some g } ∧
        frameCheck g = g.check ∧ headerIndex g.header = s.frameIndex ∧ headerCode g.header = .idle ∧ g.service = 0 ∧
        (s.screens[n].ctx.state = .dark → headerSync g.header = 0x58 ∧ ∀ c : Fin 16, g.slots[c] = 0) ∧
        (s.screens[n].ctx.state ≠ .dark → headerSync g.header = 0xA7 ∧
          ∀ c : Fin 16, g.slots[c] = BitVec.ofInt 24 t.screens[n].eng.outputs[c]) ∧
        (headerByte g.header).toNat = (if s.frameIndex = 0 then
          (if s.screens[n].link.echo then 128 else 0) + screenStateCode s.screens[n].ctx.state else 0)

/-- What a master frame does inside the part (R12, R66, R88, R92, R108). The reader of a LOCKED port whose reading has started
takes the oldest entry of its buffer, or repeats its last and counts one slip; no other reader takes one. A repeat is one
occurrence of SLIP at each screen with the port in use (R113), and no other screen has one. A screen in DARK, with no crossfade
due to end, puts out zeros and changes nothing else of its engine, decoder and meters. Any other screen puts out zeros while
muted, and its meters' running peaks take the magnitudes of its outputs; their peaks and levels wait for the boundary. An instance
that a timed command has ended ahead takes the occurrence as it stood before (assumption log 2). -/
def Obligations.MasterFrameReadsAndMeters : Prop :=
  ∀ s : State, s.powered = true → s.resetPending = none → ∃ t, exec .masterFrame s = .next t ∧
    (∀ n : Fin 8, let m := s.screens[n].mon
      let u := t.screens[n].mon
      let slips := ∃ p, s.screens[n].ctx.activePort = some p ∧ s.ports[p].state = .locked ∧ s.ports[p].started = true ∧
        s.ports[p].buffer = []
      (¬slips ∨ ¬Watched m 49 → u.alarms[(49 : Fin 54)] = m.alarms[(49 : Fin 54)] ∧
        (u.pending[(49 : Fin 54)].isSome = true ↔ m.pending[(49 : Fin 54)].isSome = true)) ∧
      (slips → Watched m 49 → let a := m.alarms[(49 : Fin 54)].resumed
        AtOccurrence (m.record 49) a u.alarms[(49 : Fin 54)] ∧
        (u.pending[(49 : Fin 54)].isSome = true ↔ m.pending[(49 : Fin 54)].isSome = true ∨
          (u.alarms[(49 : Fin 54)].state = .raised ∧ (a.state = .clear ∨ a.state = .qualifying))))) ∧
    (∀ p : Fin 12, let x := s.ports[p]
      let reads := x.state = .locked ∧ x.started = true
      (¬reads → t.ports[p] = { x with sent := t.ports[p].sent }) ∧
      (∀ o rest, reads → x.buffer = o :: rest →
        t.ports[p] = { x with buffer := rest, lastFrame := some o, sent := t.ports[p].sent }) ∧
      (reads → x.buffer = [] → t.ports[p] =
        { x with counters := { x.counters with slips := oneMore x.counters.slips }, sent := t.ports[p].sent })) ∧
    ∀ n : Fin 8, let x := s.screens[n]
      (x.ctx.state = .dark → x.eng.crossfade = none →
        t.screens[n].eng = { x.eng with outputs := Vector.replicate 16 0 } ∧ t.screens[n].dec = x.dec ∧
        t.screens[n].mon.meters = x.mon.meters) ∧
      (x.ctx.state ≠ .dark → ∀ c : Fin 16,
        (x.eng.mute = true → t.screens[n].eng.outputs[c] = 0) ∧
        t.screens[n].mon.meters[c].running =
          max x.mon.meters[c].running (min 8388607 (t.screens[n].eng.outputs[c].natAbs : Int)) ∧
        t.screens[n].mon.meters[c].peak = x.mon.meters[c].peak ∧
        t.screens[n].mon.meters[c].level = x.mon.meters[c].level) ∧
      t.screens[n].eng.fader = x.eng.fader ∧ t.screens[n].eng.fade = x.eng.fade ∧ t.screens[n].eng.mute = x.eng.mute

/-- The signal path of a screen in STANDBY or RUNNING at a master frame, with no crossfade due to end, in a part with no reset
pending (R66, R74 to R76, R78, R80, R88 to R93, R98, R113). The role signals, mapped and folded, are the channel inputs; each bank
that runs delays its input, runs its sections and applies its gain, and its sections shift; the output is the active bank's path,
or the blend of the two at the crossfade's next frame number, and zero under mute; the line takes the input; a steered format's
envelopes follow. A channel that clipped anywhere gives one occurrence of its CLIP, and another none; an instance that a timed
command has ended ahead of the boundary takes it as it stood before (assumption log 2). -/
def Obligations.MasterFrameRunsTheSignalPath : Prop :=
  ∀ s : State, s.powered = true → s.resetPending = none → ∃ t, exec .masterFrame s = .next t ∧
    ∀ n : Fin 8, s.screens[n].ctx.state ≠ .dark → (∀ y, s.screens[n].eng.crossfade = some y → y.frame ≤ 63) →
      let e := s.screens[n].eng
      let d := s.screens[n].dec
      let m := s.screens[n].mon
      let u := t.screens[n]
      let inputs := decodeInputs s n
      let runs (k : Bank) : Prop := e.crossfade.isSome = true ∨ e.active = k
      u.eng = { e with bankA := u.eng.bankA, bankB := u.eng.bankB, lines := u.eng.lines, outputs := u.eng.outputs
                       crossfade := e.crossfade.map fun y => { y with frame := y.frame + 1 } } ∧
      (∀ c : Fin 16, let x := channelSample d inputs c
        let path (k : Bank) : Int := clampSample (pathSum e k c x)
        (e.mute = true → u.eng.outputs[c] = 0) ∧
        (e.mute = false → e.crossfade = none → u.eng.outputs[c] = path e.active) ∧
        (∀ y, e.mute = false → e.crossfade = some y → u.eng.outputs[c] =
          roundOff 6 (path (otherBank y.incoming) * (64 - (y.frame + 1)) + path y.incoming * (y.frame + 1))) ∧
        u.eng.lines[c] = (x :: e.lines[c]).take (max e.bankA[c].delay e.bankB[c].delay) ∧
        (∀ k, runs k → (u.eng.bank k)[c] =
          { (e.bank k)[c] with sections := cascadeAfter (delayedSample e k c x) (e.bank k)[c].sections }) ∧
        (∀ k, ¬runs k → (u.eng.bank k)[c] = (e.bank k)[c]) ∧
        let clips := clampSample (roleSum d inputs c) ≠ roleSum d inputs c ∨
          (d.folds[c] = .normal ∧ clampSample (foldedMix d inputs c) ≠ foldedMix d inputs c) ∨ ∃ k, runs k ∧ PathClips e k c x
        ∀ id : Fin 54, id.val = c.val →
          (¬clips ∨ ¬Watched m id → u.mon.alarms[id] = m.alarms[id]) ∧
          (clips → Watched m id → AtOccurrence (m.record id) m.alarms[id].resumed u.mon.alarms[id] ∧
            (u.mon.alarms[id].state = .raised →
              m.alarms[id].resumed.state = .clear ∨ m.alarms[id].resumed.state = .qualifying →
              u.mon.pending[id].isSome = true))) ∧
      (d.format.steering = none → u.dec = d) ∧
      ∀ st, d.format.steering = some st →
        let follow (env sample : Int) : Int := env + (sampleMagnitude (sample / 2) - env) / 2 ^ st.shift
        u.dec = { d with sumEnv := follow d.sumEnv (inputs[st.first] + inputs[st.second])
                         diffEnv := follow d.diffEnv (inputs[st.first] - inputs[st.second]) }

/-- The counters and timers that a master block boundary moves (R5, R9, R35, R95, R97, R108, R109, R148, R157, R169), in a part
with no reset pending and no share taken ahead. The block counter advances by one and the frame index begins again at 0
(assumption log 11). A holdover count, a fast-drop window, an exchange timer and an arbiter's interval each lose one, and what
reaches 0 ends; a fade moves one step; a crossfade that has run its 64th frame has ended, and a pending switch starts where none
runs; at a service tick every response at the head of its queue with four ticks since its placing leaves it and is counted (R168);
each meter takes its running peak (the sync-miss run 0 of a timed-out exchange is assumption log 20's); a quiet interval and a
CUE-mode line's pulse end at their counter values. -/
def Obligations.BoundaryMovesTheTimers : Prop :=
  ∀ s : State, s.powered = true → s.resetPending = none → s.taken = [] → ∃ t, exec .masterBlockBoundary s = .next t ∧
    t = { s with blockCounter := s.blockCounter + 1, frameIndex := 0, ports := t.ports, arbiters := t.arbiters
                 screens := t.screens, lines := t.lines } ∧
    (∀ p : Fin 12, let x := s.ports[p]
      (x.state = .holdover → x.holdoverLeft ≤ 1 → t.ports[p].state = .lost ∧ t.ports[p].holdoverLeft = 0) ∧
      ((x.state ≠ .holdover ∨ 2 ≤ x.holdoverLeft) → x.assembly = none → t.ports[p] =
        { x with holdoverLeft := if x.state = .holdover then x.holdoverLeft - 1 else x.holdoverLeft
                 window := match x.window with
                   | none => none
                   | some w => if w.left ≤ 1 then none else some { w with left := w.left - 1 } }) ∧
      (2 ≤ s.arbiters[p].remainder → t.arbiters[p].remainder = s.arbiters[p].remainder - 1 ∧
        t.arbiters[p].interval = s.arbiters[p].interval ∧ t.arbiters[p].respLeft = s.arbiters[p].respLeft ∧
        t.arbiters[p].screenLeft = s.arbiters[p].screenLeft) ∧
      (s.arbiters[p].remainder ≤ 1 → t.arbiters[p].remainder = s.arbiters[p].nextInterval ∧
        t.arbiters[p].interval = s.arbiters[p].nextInterval ∧ t.arbiters[p].respLeft = s.arbiters[p].respCount ∧
        ∀ (n : Fin 8) (r : Route), s.screens[n].ctx.route = some r → r.port = p →
          t.arbiters[p].screenLeft[n] = r.count) ∧
      (s.arbiters[p].queue.length ≤ 4 → s.arbiters[p].responsesExpired ≤ 65535 →
        let now := (s.blockCounter + 1).toNat
        let expired (r : Response) : Bool :=
          decide (now % 16 = 0 ∧ 4 ≤ (now / 16 + 2 ^ 28 - r.placedAt.toNat / 16) % 2 ^ 28)
        t.arbiters[p].queue = s.arbiters[p].queue.dropWhile expired ∧
        t.arbiters[p].responsesExpired =
          min 65535 (s.arbiters[p].responsesExpired + (s.arbiters[p].queue.takeWhile expired).length))) ∧
    (∀ n : Fin 8, let x := s.screens[n]
      let e : Engine := match x.eng.crossfade with
        | none => x.eng
        | some y => if y.frame ≤ 63 then x.eng else
          { x.eng with active := y.incoming, crossfade := none
                       bankA := if y.incoming = .a then x.eng.bankA else restedBank x.eng.bankA
                       bankB := if y.incoming = .b then x.eng.bankB else restedBank x.eng.bankB }
      let faded : Engine := match e.fade with
        | none => e
        | some f =>
          let level := if e.fader < f.target then min f.target (e.fader + f.step) else max f.target (e.fader - f.step)
          { e with fader := level, fade := if level = f.target then none else some f }
      (x.link.link = .exchange → 2 ≤ x.link.timer →
        t.screens[n].link.link = .exchange ∧ t.screens[n].link.timer = x.link.timer - 1) ∧
      (x.link.link = .exchange → x.link.timer ≤ 1 →
        t.screens[n].link = { huntLink x.link with timeouts := oneMore x.link.timeouts
                                                   presented := Vector.replicate 16 .absent }) ∧
      (e.crossfade.isSome = true ∨ e.pendingSwitch = none → t.screens[n].eng = faded) ∧
      (∀ k, e.crossfade = none → e.pendingSwitch = some k → x.ctx.state = .dark →
        t.screens[n].eng = { faded with active := k, pendingSwitch := none }) ∧
      (∀ k, e.crossfade = none → e.pendingSwitch = some k → x.ctx.state ≠ .dark →
        t.screens[n].eng = { faded with pendingSwitch := none, crossfade := some { incoming := k, frame := 0 }
                                        bankA := if k = .a then restedBank e.bankA else e.bankA
                                        bankB := if k = .b then restedBank e.bankB else e.bankB }) ∧
      t.screens[n].mon.speed = x.ctx.meterSpeed ∧
      (∀ c : Fin 16, t.screens[n].mon.meters[c] =
        { running := 0, peak := x.mon.meters[c].running
          level := x.mon.meters[c].level + (x.mon.meters[c].running - x.mon.meters[c].level) / 2 ^ x.ctx.meterSpeed }) ∧
      t.screens[n].quiet = (if x.quiet = some (s.blockCounter + 1) then none else x.quiet) ∧
      t.screens[n].cues = x.cues) ∧
    ∀ l : Fin 16, s.lines[l].mode = .cue → t.lines[l] =
      (if s.lines[l].pulseEnd = some (s.blockCounter + 1) then { s.lines[l] with closed := false, pulseEnd := none }
       else s.lines[l])

/-- What a master block boundary settles for each screen (R39, R52, R53, R55, R71, R72, R79, R81, R111, R112, R118 to R121, R129),
in a part with no reset pending and no share taken ahead. The presented states are the rack's in UP and ABSENT otherwise. A source
request with a configured port, or a due failover from a LOST primary to a LOCKED alternate, moves the active source, and a
failover due is cleared in either case; then a source whose configured port has changed is selected again (R53). The tag is
resolved from override, descriptor and fallback; the working format is a fresh copy where the tag changed or went stale; the
working map and the fold statuses follow. The unit takes over its inputs; an instance that is disabled, not evaluated or
suppressed is CLEAR; the LINK condition raises an enabled instance of count 1 that no timed command has ended ahead. The port in
use until the boundary is assumption log 8's, and the order of the boundary's work log 5's. That a role switched to by a request
or a failover stays, where its port has been changed since the last boundary, is assumption log 8's. -/
def Obligations.BoundarySettlesEachScreen : Prop :=
  ∀ s : State, s.powered = true → s.resetPending = none → s.taken = [] → ∃ t, exec .masterBlockBoundary s = .next t ∧
    ∀ n : Fin 8,
      let x := s.screens[n]
      let y := t.screens[n]
      (∀ k : Fin 16,
        (∀ m, x.link.link = .up → x.link.channelCount = some m → k.val < m → y.link.presented[k] = x.link.stored[k]) ∧
        (x.link.link ≠ .up ∨ x.link.channelCount = none ∨ (∃ m, x.link.channelCount = some m ∧ m ≤ k.val) →
          y.link.presented[k] = .absent)) ∧
      (∃ (m : Context) (switched : Bool), BoundarySource s t n m switched ∧
        y.ctx = { m with resolved := y.ctx.resolved, formatCond := y.ctx.formatCond }) ∧
      (∀ tag, x.ctx.override = some tag → s.validTag tag = true → y.ctx.resolved = tag ∧ y.ctx.formatCond = false) ∧
      ((∀ tag, x.ctx.override = some tag → s.validTag tag = false) →
        (∀ tag, x.ctx.descTag = some tag → s.validTag tag = true → y.ctx.resolved = tag ∧ y.ctx.formatCond = false) ∧
        ((∀ tag, x.ctx.descTag = some tag → s.validTag tag = false) →
          y.ctx.resolved = x.ctx.fallback ∧ y.ctx.formatCond = true)) ∧
      (∀ f, (y.ctx.resolved ≠ x.dec.tag ∨ x.dec.stale = true) → s.format? y.ctx.resolved = some f →
        y.dec.tag = y.ctx.resolved ∧ y.dec.format = f ∧ y.dec.stale = false) ∧
      (y.ctx.resolved = x.dec.tag → x.dec.stale = false → y.dec.tag = x.dec.tag ∧ y.dec.format = x.dec.format) ∧
      y.dec.map = x.ctx.map ∧ y.dec.foldEnable = x.ctx.foldEnable ∧
      (∀ k : Fin 16,
        let failed (j : Fin 16) : Prop := y.link.presented[j] = .fault ∨ y.link.presented[j] = .absent
        (y.dec.foldEnable = false ∨ ¬failed k ∨ y.dec.map[k].partner = none → y.dec.folds[k] = .normal) ∧
        ∀ j, y.dec.foldEnable = true → failed k → y.dec.map[k].partner = some j →
          (failed j → y.dec.folds[k] = .dropped) ∧ (¬failed j → y.dec.folds[k] = .folded j)) ∧
      y.mon.evaluated = x.ctx.state ∧ y.mon.handedFader = y.eng.fader ∧ y.mon.handedMute = y.eng.mute ∧
      y.mon.handedQuiet = y.quiet.isSome ∧
      (∀ k : Fin 16, y.mon.handedFolded[k] = true ↔ y.dec.folds[k] ≠ .normal) ∧
      (∀ id : Fin 54,
        ((y.mon.record id).enable = false ∨ (x.ctx.state = .dark ∧ id.val ≠ 50 ∧ id.val ≠ 51) ∨
          (x.ctx.state = .standby ∧ 32 ≤ id.val ∧ id.val ≤ 47) ∨ SuppressedBy y.mon id) →
        y.mon.alarms[id] = { state := .clear, count := 0, left := 0, clean := 0, hit := false }) ∧
      (x.link.link ≠ .up → (y.mon.record 51).enable = true → (y.mon.record 51).count ≤ 1 → ¬SuppressedBy y.mon 51 →
        x.mon.alarms[(51 : Fin 54)].state = .clear → x.mon.alarms[(51 : Fin 54)].early = none →
        y.mon.alarms[(51 : Fin 54)] = { state := .raised, count := 0, left := 0, clean := 0, hit := false } ∧
        (x.mon.pending[(51 : Fin 54)] = none → y.mon.pending[(51 : Fin 54)] = some false)) ∧
      SummaryRight y.mon

/-- What a master block boundary does with each screen's steering and fold losses (R52, R53, R72, R73, R77, R81), in a part with
no reset pending and no share taken ahead. A switch of the active source, and a fresh copy of the working format, reset the
steering: envelopes, target and weight 0, blended coefficients those of matrix A. Then, for a steered format in STANDBY or
RUNNING, the target is formed from the envelopes, the weight moves toward it by at most the slew, and every blended coefficient is
formed from the weight; otherwise the three stand. Each channel that turns DROPPED counts one fold loss, up to 65,535. Nothing
else of the decode unit changes but its working format, map and folds. The order of the boundary's work is assumption log 5's.
That a role switched to by a request or a failover stays, where its port has been changed since the last boundary, is assumption
log 8's. -/
def Obligations.BoundarySteersAndCountsFoldLosses : Prop :=
  ∀ s : State, s.powered = true → s.resetPending = none → s.taken = [] → ∃ t, exec .masterBlockBoundary s = .next t ∧
    ∀ n : Fin 8, ∃ (m : Context) (switched : Bool), BoundarySource s t n m switched ∧
      let x := s.screens[n]
      let d := x.dec
      let y := t.screens[n].dec
      let resolved := t.screens[n].ctx.resolved
      let fresh := (resolved ≠ d.tag ∨ d.stale = true) ∧ (s.format? resolved).isSome = true
      let reset := switched = true ∨ fresh
      let steered := x.ctx.state ≠ .dark ∧ y.format.steering.isSome = true
      y = { d with tag := y.tag, format := y.format, stale := y.stale, sumEnv := y.sumEnv, diffEnv := y.diffEnv, target := y.target
                   weight := y.weight, blended := y.blended, map := y.map, foldEnable := y.foldEnable, folds := y.folds
                   foldLosses := y.foldLosses } ∧
      (¬fresh → y.tag = d.tag ∧ y.format = d.format ∧ y.stale = d.stale) ∧
      (reset → y.sumEnv = 0 ∧ y.diffEnv = 0 ∧ y.target = 0 ∧ y.weight = 0) ∧
      (¬reset → y.sumEnv = d.sumEnv ∧ y.diffEnv = d.diffEnv) ∧
      (reset → ¬steered → y.blended = y.format.rows.map (·.a)) ∧
      (¬reset → ¬steered → y.target = d.target ∧ y.weight = d.weight ∧ y.blended = d.blended) ∧
      (∀ st, ¬reset → x.ctx.state ≠ .dark → y.format.steering = some st →
        (d.sumEnv ≤ d.diffEnv → y.target = 0) ∧
        (0 ≤ d.diffEnv → d.diffEnv < d.sumEnv → y.target * (d.sumEnv + d.diffEnv) ≤ 64 * (d.sumEnv - d.diffEnv) ∧
          64 * (d.sumEnv - d.diffEnv) < (y.target + 1) * (d.sumEnv + d.diffEnv)) ∧
        (d.weight ≤ y.target + st.slew → y.target ≤ d.weight + st.slew → y.weight = y.target) ∧
        (d.weight + st.slew < y.target → y.weight = d.weight + st.slew) ∧
        (y.target + st.slew < d.weight → y.weight = d.weight - st.slew)) ∧
      (steered → y.blended = y.format.rows.map fun row => Vector.ofFn fun j : Fin 16 =>
        (row.a[j] * (64 - (y.weight : Int)) + row.b[j] * (y.weight : Int) + 32) / 64) ∧
      y.foldLosses = min 65535 (d.foldLosses +
        ((List.finRange 16).filter fun k => y.folds[k] == .dropped && d.folds[k] != .dropped).length)

/-- What a master block boundary does with each alarm instance and each ALARM-mode line, in a part with no reset pending and no
share taken ahead (R111, R112, R116 to R121, R123, R158). An instance that is not watched is CLEAR. Any other first takes the
ending block's occurrence where its class's condition holds (OVER and SILENT by the level just formed, SOURCE, AMP, LINK and
FORMAT by what the other blocks hand over), and then its boundary step; an entry into RAISED from CLEAR or QUALIFYING makes its id
pending. An instance that a timed command ended in this block is taken as it stood (assumption log 2). That where the set of
evaluated classes widens the ending block's occurrence is taken under the new set is assumption log 31's. An ALARM-mode line
follows its owner's summary. That the SOURCE condition is formed after the same boundary's holdover expiry is assumption log 5's.
-/
def Obligations.BoundaryRunsTheAlarmInstances : Prop :=
  ∀ s : State, s.powered = true → s.resetPending = none → s.taken = [] → ∃ t, exec .masterBlockBoundary s = .next t ∧
    (∀ n : Fin 8, let m := s.screens[n].mon
      let y := t.screens[n]
      let loud (c : Fin 16) : Prop := ∃ v, (y.mon.record ⟨16 + c.val, by omega⟩).threshold = some v ∧ v ≤ y.mon.meters[c].level
      let still (c : Fin 16) : Prop := y.dec.map[c].expected = true ∧
        ∃ v, (y.mon.record ⟨32 + c.val, by omega⟩).threshold = some v ∧ y.mon.meters[c].level < v
      let holds (id : Fin 54) : Prop :=
        (∃ c : Fin 16, id.val = 16 + c.val ∧ loud c) ∨ (∃ c : Fin 16, id.val = 32 + c.val ∧ still c) ∨
        (id = 48 ∧ ∃ q, y.ctx.primary = some q ∧ t.ports[q].state = .lost) ∨
        (id = 50 ∧ ∃ k : Fin 16, y.dec.map[k].role.isSome = true ∧ y.link.presented[k] ≠ .ok) ∨
        (id = 51 ∧ y.link.link ≠ .up) ∨ (id = 53 ∧ y.ctx.formatCond = true)
      y.mon.table = m.table ∧ SummaryRight y.mon ∧
      ∀ id : Fin 54, let a := m.alarms[id].resumed
        (m.pending[id].isSome = true → y.mon.pending[id].isSome = true) ∧
        (¬Watched y.mon id → y.mon.alarms[id] = clearInstance ∧ (m.pending[id] = none → y.mon.pending[id] = none)) ∧
        (Watched y.mon id → ∃ b, (holds id → AtOccurrence (m.record id) a b) ∧ (¬holds id → b = a) ∧
          AtBoundaryStep (m.record id) b y.mon.alarms[id] ∧
          (m.pending[id] = none → y.mon.pending[id] =
            if b.state = .raised ∧ (a.state = .clear ∨ a.state = .qualifying) then some false else none))) ∧
    ∀ l : Fin 16, s.lines[l].mode = .alarm → s.lines[l].pulseEnd = none →
      (∀ n, s.lines[l].owner = some n → t.lines[l] =
        { s.lines[l] with closed := summaryCloses t.screens[n].mon.summary s.lines[l].threshold }) ∧
      (s.lines[l].owner = none → t.lines[l] = s.lines[l])

/-! ### The part's queued steps -/

/-- ARBITER_GRANT (R169 to R172). Where the port is not LOCKED or its channel is taken, and where no requester waits, nothing
changes. Otherwise the first waiting requester with a remaining count, in the cyclic order after the last guaranteed grant, is
granted and its count decreases; where there is none, the holder of the rotation while its burst is below its weight, and else the
first waiting requester in the cyclic order after the holder. The granted message takes the channel. RESP's weight is the port's
W, and a screen's that of its route (R171). -/
def Obligations.ArbiterGrantsInTurn : Prop :=
  ∀ (p : Fin 12) (s : State), s.powered = true →
    let a := s.arbiters[p]
    let promised (q : Requester) : Prop := Waits s p q ∧ 1 ≤ remaining a q
    let stays (q : Requester) : Prop := Waits s p q ∧ a.burst < s.weightOf p q
    s.weightOf p .resp = a.respWeight ∧
    (∀ (n : Fin 8) (r : Route), s.screens[n].ctx.route = some r → s.weightOf p (.screen n) = r.weight) ∧
    (s.ports[p].state ≠ .locked ∨ a.channel ≠ none ∨ (∀ q, ¬Waits s p q) → exec (.arbiterGrant p) s = .next s) ∧
    (s.ports[p].state = .locked → a.channel = none →
      (∀ q, FirstAfter a.lastGranted promised q → ∃ t, exec (.arbiterGrant p) s = .next t ∧
        Granted p q (fun a => match q with
          | .resp => { a with respLeft := a.respLeft - 1, lastGranted := some .resp }
          | .screen n => { a with screenLeft := a.screenLeft.set n.val (a.screenLeft[n] - 1)
                                  lastGranted := some (.screen n) }) s t) ∧
      ((∀ q, ¬promised q) →
        (∀ q, a.holder = some q → stays q → ∃ t, exec (.arbiterGrant p) s = .next t ∧
          Granted p q (fun a => { a with holder := some q, burst := a.burst + 1 }) s t) ∧
        ((∀ q, a.holder = some q → ¬stays q) → ∀ q, FirstAfter a.holder (Waits s p) q →
          ∃ t, exec (.arbiterGrant p) s = .next t ∧
            Granted p q (fun a => { a with holder := some q, burst := 1 }) s t)))

/-- MESSAGE_SENT, and the abandoning of a message when its port leaves LOCKED (R172, R188). A channel that is free, or whose message
has words left, stays as it is at MESSAGE_SENT (for a message with words left, assumption log 2's choice). A message whose END word
has gone out leaves the channel; a notice is released, and a response to PART-RESET makes the reset due. A message abandoned with
words left is counted, leaves the channel, and a notice is counted lost. -/
def Obligations.SentAndAbandonedMessagesFreeTheChannel : Prop :=
  ∀ (p : Fin 12) (s : State), s.powered = true →
    let due (r : Option ResetPending) : Option ResetPending := r.map fun x => { x with due := true }
    let freed := s.modArb p fun a => { a with channel := none }
    (s.arbiters[p].channel = none → exec (.messageSent p) s = .next s ∧ s.abandonMessage p = s) ∧
    ∀ m, s.arbiters[p].channel = some m →
      (m.sent < m.words.length → exec (.messageSent p) s = .next s) ∧
      (m.words.length ≤ m.sent →
        (m.owner = .resp → exec (.messageSent p) s =
          .next { freed with resetPending := if m.forReset then due s.resetPending else s.resetPending }) ∧
        ∀ n, m.owner = .screen n → exec (.messageSent p) s = .next (freed.modNotice n fun u => { u with unsent := none })) ∧
      (m.sent < m.words.length →
        let counted := s.modArb p fun a => { a with channel := none, messagesAbandoned := oneMore a.messagesAbandoned }
        (m.owner = .resp → s.abandonMessage p =
          { counted with resetPending := if m.forReset then due s.resetPending else s.resetPending }) ∧
        ∀ n, m.owner = .screen n →
          s.abandonMessage p = counted.modNotice n fun u => { u with unsent := none, lost := oneMore u.lost })

/-- NOTICE_CHOICE (R161 to R163). Where the screen has no route, an unsent notice or no qualifying candidate, nothing changes.
Otherwise the candidate of lowest level is taken, an alarm before a mark and of alarms the lowest id: its alarm is marked noticed,
or its mark leaves the queue with the level-3 marks that then come to its head (assumption log 26's choice); an entry with the saved
ceiling goes on the stack, the ceiling becomes its level, and the notice with the screen's next sequence number waits. The notice's
words are the route's node with the part's, kind 64 with the screen, the sequence number, and the source, its level, its state, the
block counter and the last evaluated position, closed by the check. -/
def Obligations.NoticeChoiceTakesTheLowestLevel : Prop :=
  ∀ (n : Fin 8) (s : State), s.powered = true →
    let x := s.screens[n]
    (x.ctx.route = none ∨ x.notice.unsent ≠ none ∨ (∀ src lv, ¬Qualifies x src lv) →
      exec (.noticeChoice n) s = .next s) ∧
    ∀ (route : Route) (src : NoticeSource) (lv : Nat), x.ctx.route = some route → x.notice.unsent = none → Chosen x src lv →
      exec (.noticeChoice n) s = .next (s.modScreen n fun x =>
        { x with
          mon := match src with
            | .alarm id => { x.mon with pending := x.mon.pending.set id.val (some true) }
            | .mark _ => { x.mon with marks := x.mon.marks.tail.dropWhile fun m => m.level == 3 }
          notice := { x.notice with
            ceiling := lv
            stack := { saved := x.notice.ceiling, source := src, level := lv, tag := x.notice.sequence } :: x.notice.stack
            unsent := some { words := s.noticeWords n route src lv, tag := x.notice.sequence, sending := false }
            sequence := x.notice.sequence + 1 } }) ∧
      ∃ words, s.noticeWords n route src lv = words ++ [messageCheck words] ∧
        words = [route.node ++ s.node, BitVec.ofNat 16 (64 * 16 + n.val), x.notice.sequence] ++
          (match src with
            | .alarm id => [0, BitVec.ofNat 16 id.val, BitVec.ofNat 16 lv, 0,
                BitVec.ofNat 16 (alarmStateCode x.mon.alarms[id].state)]
            | .mark cue => [1, BitVec.ofNat 16 cue, BitVec.ofNat 16 lv, 1]) ++
          [BitVec.ofNat 16 (s.blockCounter.toNat / 65536), BitVec.ofNat 16 s.blockCounter.toNat] ++
          (match x.ctx.lastPosition with
            | some q => [0, BitVec.ofNat 16 (q.toNat / 65536), BitVec.ofNat 16 q.toNat]
            | none => [1])

/-! ### The part's timed steps (each takes its item's share of the coming boundary: assumption log 2) -/

/-- HOLDOVER_EXPIRY, FAST_DROP_WINDOW_CLOSE, SERVICE_TIMEOUT, EXCHANGE_TIMEOUT, RESPONSE_EXPIRY and ARBITER_RELOAD (R5, R9, R18,
R35, R32, R168, R169, R188). Each acts where the coming boundary ends its item: a HOLDOVER port with one block left enters LOST
and says so; a window with one block left closes; at a service tick a message under assembly with one tick behind it is discarded,
captured and named as the last timed out; a screen port in EXCHANGE with one block left enters HUNT, with its sync-miss run 0
(assumption log 20), and counts one timeout; at a service tick the oldest response of a queue, with four ticks since its placing,
leaves it and is counted, and where it was the response to a PART-RESET the reset is due; an arbiter with one block left reloads,
every remaining count becoming its G and T the next interval. The share is recorded as taken. Otherwise, and where it is taken
already, nothing changes. -/
def Obligations.LinkTimersEndTheirItems : Prop :=
  (∀ (p : Fin 12) (s : State), s.powered = true →
     let x := s.ports[p]
     ((Share.holdover p ∈ s.taken ∨ x.state ≠ .holdover ∨ 2 ≤ x.holdoverLeft) → exec (.holdoverExpiry p) s = .next s) ∧
     (Share.holdover p ∉ s.taken → x.state = .holdover → x.holdoverLeft ≤ 1 → exec (.holdoverExpiry p) s =
       .next { s.modPort p fun x => { x with state := .lost, holdoverLeft := 0 } with
         screens := Vector.ofFn fun n => afterLost p s.screens[n], taken := .holdover p :: s.taken }) ∧
     ((Share.window p ∈ s.taken ∨ (∀ w, x.window = some w → 2 ≤ w.left)) → exec (.fastDropWindowClose p) s = .next s) ∧
     (∀ w, Share.window p ∉ s.taken → x.window = some w → w.left ≤ 1 → exec (.fastDropWindowClose p) s =
       .next { s.modPort p fun x => { x with window := none } with taken := .window p :: s.taken }) ∧
     ((Share.message p ∈ s.taken ∨ (s.blockCounter + 1).toNat % 16 ≠ 0 ∨ (∀ a, x.assembly = some a → a.ticks = 0)) →
       exec (.serviceTimeout p) s = .next s) ∧
     ∀ a, Share.message p ∉ s.taken → (s.blockCounter + 1).toNat % 16 = 0 → x.assembly = some a → 1 ≤ a.ticks →
       exec (.serviceTimeout p) s = .next { s.modPort p fun x =>
         { x with assembly := none, lastTimedOut := some a.source
                  counters := { x.counters with discarded := oneMore x.counters.discarded }
                  capture := offered x .service none (s.blockCounter + 1) } with taken := .message p :: s.taken }) ∧
  ∀ s : State, s.powered = true →
    let next := s.blockCounter + 1
    (∀ n : Fin 8, let x := s.screens[n].link
      ((Share.exchange n ∈ s.taken ∨ x.link ≠ .exchange ∨ 2 ≤ x.timer) → exec (.exchangeTimeout n) s = .next s) ∧
      (Share.exchange n ∉ s.taken → x.link = .exchange → x.timer ≤ 1 → exec (.exchangeTimeout n) s =
        .next { s.modLink n fun x => { huntLink x with timeouts := oneMore x.timeouts } with
          taken := .exchange n :: s.taken })) ∧
    ∀ p : Fin 12, let a := s.arbiters[p]
      let expired (r : Response) : Prop :=
        next.toNat % 16 = 0 ∧ 4 ≤ (next.toNat / 16 + 2 ^ 28 - r.placedAt.toNat / 16) % 2 ^ 28
      ((∀ r rest, a.queue = r :: rest → ¬expired r) → exec (.responseExpiry p) s = .next s) ∧
      (∀ r rest, a.queue = r :: rest → expired r → exec (.responseExpiry p) s =
        .next { s.modArb p fun a => { a with queue := rest, responsesExpired := oneMore a.responsesExpired } with
          resetPending := if r.forReset then s.resetPending.map fun x => { x with due := true } else s.resetPending }) ∧
      ((Share.reload p ∈ s.taken ∨ 2 ≤ a.remainder) → exec (.arbiterReload p) s = .next s) ∧
      (Share.reload p ∉ s.taken → a.remainder ≤ 1 → ∃ left : Vector Nat 8,
        (∀ n : Fin 8, (∀ r, s.screens[n].ctx.route = some r → r.port = p → left[n] = r.count) ∧
          ((∀ r, s.screens[n].ctx.route = some r → r.port ≠ p) → left[n] = 0)) ∧
        exec (.arbiterReload p) s = .next { s.modArb p fun a =>
          { a with respLeft := a.respCount, screenLeft := left, interval := a.nextInterval, remainder := a.nextInterval } with
          taken := .reload p :: s.taken })

/-- QUIET_INTERVAL_END, CONTACT_PULSE_END, QUALIFY_WINDOW_EXPIRY, RELEASE_COMPLETE and CROSSFADE_END (R148, R157, R117, R129,
R158, R99). A quiet interval and a pulse end where their end is the coming counter value. A QUALIFYING instance at the end of its
window, and a clean RELEASING instance at the end of its release, return to CLEAR where the coming boundary, which takes the
ending block's occurrence first, leaves them CLEAR; what was ended is kept while the block lasts, and the summary is formed again.
They do so, in particular, wherever no reset is pending, the instance was not ended before, and its class's condition cannot hold
at the boundary or, for a QUALIFYING instance, its count would stay below N with one more. A crossfade that has run its 64th frame
makes the incoming bank active and zeroes the other's section states. Otherwise nothing changes. That these steps may be commanded
ahead of the boundary is assumption log 2's. -/
def Obligations.ScreenTimersEndTheirItems : Prop :=
  ∀ s : State, s.powered = true →
    let next := s.blockCounter + 1
    (∀ l : Fin 16,
      (s.lines[l].pulseEnd = some next → exec (.contactPulseEnd l) s =
        .next (s.modLine l fun x => { x with closed := false, pulseEnd := none })) ∧
      (s.lines[l].pulseEnd ≠ some next → exec (.contactPulseEnd l) s = .next s)) ∧
    ∀ n : Fin 8, let x := s.screens[n]
      (x.quiet = some next → exec (.quietIntervalEnd n) s = .next (s.modScreen n fun x => { x with quiet := none })) ∧
      (x.quiet ≠ some next → exec (.quietIntervalEnd n) s = .next s) ∧
      (∀ y, x.eng.crossfade = some y → 64 ≤ y.frame → exec (.crossfadeEnd n) s = .next (s.modEng n fun e =>
        { e with active := y.incoming, crossfade := none
                 bankA := if y.incoming = .a then e.bankA else restedBank e.bankA
                 bankB := if y.incoming = .b then e.bankB else restedBank e.bankB })) ∧
      ((∀ y, x.eng.crossfade = some y → y.frame ≤ 63) → exec (.crossfadeEnd n) s = .next s) ∧
      ∀ id : Fin 54, let a := x.mon.alarms[id]
        let windowEnds := a.state = .qualifying ∧ a.left ≤ 1
        let releaseEnds := a.state = .releasing ∧ a.hit = false ∧ (x.mon.record id).release ≤ a.clean + 1
        let clears := ∃ u, exec .masterBlockBoundary s = .next u ∧ u.screens[n].mon.alarms[id].state = .clear
        let ended (c : Instr) (what : EarlyEnd) : Prop := ∃ t, exec c s = .next t ∧
          t = { s.modMon n fun m =>
            { m with alarms := m.alarms.set id.val { clearInstance with early := some what }
                     summary := t.screens[n].mon.summary } with lines := t.lines } ∧
          SummaryRight t.screens[n].mon ∧ LinesFollow (fun k => k = n) s t
        (¬(windowEnds ∧ clears) → exec (.qualifyWindowExpiry n id) s = .next s) ∧
        (windowEnds → clears → ended (.qualifyWindowExpiry n id) (.window a.count)) ∧
        (¬(releaseEnds ∧ clears) → exec (.releaseComplete n id) s = .next s) ∧
        (releaseEnds → clears → ended (.releaseComplete n id) (.release a.clean)) ∧
        (s.resetPending = none → a.early = none → windowEnds →
          (¬MayOccur s n id ∨ a.count + 2 ≤ (x.mon.record id).count) → ended (.qualifyWindowExpiry n id) (.window a.count)) ∧
        (s.resetPending = none → a.early = none → releaseEnds → ¬MayOccur s n id →
          ended (.releaseComplete n id) (.release a.clean))

/-! ### The arithmetic of the signal path -/

/-- The roundings, clamps and blends of the signal path (R74, R76, R77, R80, R90, R91, R98; Arithmetic Terms). A section's output is
its sum rounded by 20 bits and clamped to the sample range, marked where the clamp changed it; its states shift by one. A role
signal is the sum over the format's inputs rounded by 14 bits and clamped; the input of a channel with others folded onto it is its
own signal plus their rounded contributions, clamped once. A gain is trim times fader level rounded by 14 bits, and a path's output
its section output times the gain, rounded by 14 bits and clamped. A crossfade's blend is rounded by 6 bits. The target weight is
the quotient of 64 times the envelopes' difference by their sum, and the weight moves toward it by at most the slew. -/
def Obligations.SignalPathRoundsAndClamps : Prop :=
  (∀ (c : Section) (x : Int),
    let sum := c.coefs.b0 * x + c.coefs.b1 * c.x1 + c.coefs.b2 * c.x2 - c.coefs.a1 * c.y1 - c.coefs.a2 * c.y2
    let y := c.output x
    (8388608 * 1048576 ≤ sum + 524288 → y.value = 8388607 ∧ y.clipped = true) ∧
    (sum + 524288 < -8388608 * 1048576 → y.value = -8388608 ∧ y.clipped = true) ∧
    (-8388608 * 1048576 ≤ sum + 524288 → sum + 524288 < 8388608 * 1048576 →
      y.value * 1048576 ≤ sum + 524288 ∧ sum + 524288 < (y.value + 1) * 1048576 ∧ y.clipped = false) ∧
    ∀ z, c.shift x z = { c with x1 := x, x2 := c.x1, y1 := z, y2 := c.y1 }) ∧
  (∀ (d : Decoder) (x : Vector Int 16) (i : Nat) (row : FormatRow),
    let coefs := if d.format.steering.isSome then (d.blended[i]?).getD row.a else row.a
    RoundedClamped 14 (((List.finRange 16).filter fun j => j.val < d.format.inputs).map fun j => coefs[j] * x[j]).sum
      (d.rowSignal x i row)) ∧
  (∀ (d : Decoder) (m : Vector Marked 16) (k : Fin 16),
    let mix := m[k].value + (((List.finRange 16).filter fun f => d.folds[f] == .folded k).map fun f =>
      roundOff 14 (m[f].value * d.map[f].gain)).sum
    (d.folds[k] ≠ .normal → (d.channelInput m k).value = 0 ∧ (d.channelInput m k).clipped = false) ∧
    (d.folds[k] = .normal → (∀ f : Fin 16, d.folds[f] ≠ .folded k) →
      (d.channelInput m k).value = m[k].value ∧ (d.channelInput m k).clipped = false) ∧
    (d.folds[k] = .normal → (∃ f : Fin 16, d.folds[f] = .folded k) →
      (d.channelInput m k).value = clampSample mix ∧ ((d.channelInput m k).clipped = true ↔ clampSample mix ≠ mix))) ∧
  (∀ (c : Chain) (line : List Int) (fader : Nat) (x : Int),
    let taken := if c.delay = 0 then x else line.getD (c.delay - 1) 0
    let out := roundOff 14 (cascadeOutput taken c.sections * gain c.trim fader)
    (c.path line fader x).value = clampSample out ∧
      ((c.path line fader x).clipped = true ↔ CascadeClips taken c.sections ∨ clampSample out ≠ out)) ∧
  (∀ trim fader : Nat, gain trim fader * 16384 ≤ trim * fader + 8192 ∧ (trim * fader + 8192 : Int) < (gain trim fader + 1) * 16384) ∧
  (∀ (old new : Int) (w : Nat), w ≤ 64 →
    blend old new w * 64 ≤ old * (64 - w) + new * w + 32 ∧ old * (64 - w) + new * w + 32 < (blend old new w + 1) * 64) ∧
  (∀ sum diff : Int, 0 ≤ diff → (sum ≤ diff → targetWeight sum diff = 0) ∧
    (diff < sum → targetWeight sum diff * (sum + diff) ≤ 64 * (sum - diff) ∧
      64 * (sum - diff) < (targetWeight sum diff + 1) * (sum + diff) ∧ targetWeight sum diff ≤ 64)) ∧
  (∀ slew weight target : Nat, let w := moveWeight slew weight target
    (weight ≤ target → w = min target (weight + slew)) ∧ (target ≤ weight → w = max target (weight - slew))) ∧
  ∀ (shift : Nat) (env mag : Int), envelope shift env mag = env + (mag - env) / 2 ^ shift

/-! ### What holds in every run -/

/-- Every step keeps: a port's buffer within 32 entries, and empty with its fast-drop window closed outside LOCKED; a response queue
within 4; a fader level within 16,384 and with it a fade's target; the section and pool totals within 2,048 and 65,536 (R10, R11,
R86, R87, R94, R95, R168). -/
def Obligations.LinksEnginesAndBudgetsStaySafe : Prop :=
  ∀ s t : State, step s = .next t →
    (s.PortsSafe → t.PortsSafe) ∧ (s.ArbitersSafe → t.ArbitersSafe) ∧ (s.EnginesSafe → t.EnginesSafe) ∧
    (s.BudgetSafe → t.BudgetSafe)

/-- Every step keeps: a mark queue within 8 entries and the summary the lowest level among the standing instances; every ALARM-mode
line without pulse end and CLOSED exactly where its owner's summary is at or below its threshold; every notice stack standing
under its ceiling; every cue list in list order with ids that differ, and every one of the 512 cue records on the free stack or in
one list (R128, R129, R133, R134, R158, R162, R164). -/
def Obligations.AlarmsNoticesAndCuesStaySafe : Prop :=
  ∀ s t : State, step s = .next t →
    (s.AlarmsSafe → t.AlarmsSafe) ∧ (s.NoticesSafe → t.NoticesSafe) ∧ (s.CuesSafe → t.CuesSafe)

/-- The state after reset holds every block's power-on values and an empty queue, and is as the seven conditions say. Its strap
value 0 is the model's choice (assumption log 1). -/
def Obligations.ResetStateIsPowerOnAndSafe : Prop :=
  AtPowerOn State.reset ∧ State.reset.straps = 0 ∧ State.reset.pending = [] ∧
  State.reset.PortsSafe ∧ State.reset.ArbitersSafe ∧ State.reset.EnginesSafe ∧ State.reset.BudgetSafe ∧
  State.reset.AlarmsSafe ∧ State.reset.NoticesSafe ∧ State.reset.CuesSafe
end

