-- ==== Sys2Proof/Laws/State.lean ====
section
/-! SUPPORT. What each update of State leaves of each field: one lemma for each field and update, true by `rfl`, and the reading
of an updated item. The updates of a part of a screen are brought to `modScreen`. -/

namespace Sys2Proof.Machine

/-! ### modPort -/

section
variable (s : State) (p : Fin 12) (f : Port → Port)
@[simp] theorem State.modPort_powered : (s.modPort p f).powered = s.powered := rfl
@[simp] theorem State.modPort_straps : (s.modPort p f).straps = s.straps := rfl
@[simp] theorem State.modPort_blockCounter : (s.modPort p f).blockCounter = s.blockCounter := rfl
@[simp] theorem State.modPort_frameIndex : (s.modPort p f).frameIndex = s.frameIndex := rfl
@[simp] theorem State.modPort_arbiters : (s.modPort p f).arbiters = s.arbiters := rfl
@[simp] theorem State.modPort_screens : (s.modPort p f).screens = s.screens := rfl
@[simp] theorem State.modPort_loaded : (s.modPort p f).loaded = s.loaded := rfl
@[simp] theorem State.modPort_staging : (s.modPort p f).staging = s.staging := rfl
@[simp] theorem State.modPort_freeStack : (s.modPort p f).freeStack = s.freeStack := rfl
@[simp] theorem State.modPort_lines : (s.modPort p f).lines = s.lines := rfl
@[simp] theorem State.modPort_screenLocks : (s.modPort p f).screenLocks = s.screenLocks := rfl
@[simp] theorem State.modPort_partLock : (s.modPort p f).partLock = s.partLock := rfl
@[simp] theorem State.modPort_resetPending : (s.modPort p f).resetPending = s.resetPending := rfl
@[simp] theorem State.modPort_taken : (s.modPort p f).taken = s.taken := rfl
@[simp] theorem State.modPort_freeCount : (s.modPort p f).freeCount = s.freeCount := rfl
@[simp] theorem State.modPort_pending : (s.modPort p f).pending = s.pending := rfl
end

/-! ### modArb -/

section
variable (s : State) (p : Fin 12) (f : Arbiter → Arbiter)
@[simp] theorem State.modArb_powered : (s.modArb p f).powered = s.powered := rfl
@[simp] theorem State.modArb_straps : (s.modArb p f).straps = s.straps := rfl
@[simp] theorem State.modArb_blockCounter : (s.modArb p f).blockCounter = s.blockCounter := rfl
@[simp] theorem State.modArb_frameIndex : (s.modArb p f).frameIndex = s.frameIndex := rfl
@[simp] theorem State.modArb_ports : (s.modArb p f).ports = s.ports := rfl
@[simp] theorem State.modArb_screens : (s.modArb p f).screens = s.screens := rfl
@[simp] theorem State.modArb_loaded : (s.modArb p f).loaded = s.loaded := rfl
@[simp] theorem State.modArb_staging : (s.modArb p f).staging = s.staging := rfl
@[simp] theorem State.modArb_freeStack : (s.modArb p f).freeStack = s.freeStack := rfl
@[simp] theorem State.modArb_lines : (s.modArb p f).lines = s.lines := rfl
@[simp] theorem State.modArb_screenLocks : (s.modArb p f).screenLocks = s.screenLocks := rfl
@[simp] theorem State.modArb_partLock : (s.modArb p f).partLock = s.partLock := rfl
@[simp] theorem State.modArb_resetPending : (s.modArb p f).resetPending = s.resetPending := rfl
@[simp] theorem State.modArb_taken : (s.modArb p f).taken = s.taken := rfl
@[simp] theorem State.modArb_freeCount : (s.modArb p f).freeCount = s.freeCount := rfl
@[simp] theorem State.modArb_pending : (s.modArb p f).pending = s.pending := rfl
end

/-! ### modScreen -/

section
variable (s : State) (n : Fin 8) (f : Screen → Screen)
@[simp] theorem State.modScreen_powered : (s.modScreen n f).powered = s.powered := rfl
@[simp] theorem State.modScreen_straps : (s.modScreen n f).straps = s.straps := rfl
@[simp] theorem State.modScreen_blockCounter : (s.modScreen n f).blockCounter = s.blockCounter := rfl
@[simp] theorem State.modScreen_frameIndex : (s.modScreen n f).frameIndex = s.frameIndex := rfl
@[simp] theorem State.modScreen_ports : (s.modScreen n f).ports = s.ports := rfl
@[simp] theorem State.modScreen_arbiters : (s.modScreen n f).arbiters = s.arbiters := rfl
@[simp] theorem State.modScreen_loaded : (s.modScreen n f).loaded = s.loaded := rfl
@[simp] theorem State.modScreen_staging : (s.modScreen n f).staging = s.staging := rfl
@[simp] theorem State.modScreen_freeStack : (s.modScreen n f).freeStack = s.freeStack := rfl
@[simp] theorem State.modScreen_lines : (s.modScreen n f).lines = s.lines := rfl
@[simp] theorem State.modScreen_screenLocks : (s.modScreen n f).screenLocks = s.screenLocks := rfl
@[simp] theorem State.modScreen_partLock : (s.modScreen n f).partLock = s.partLock := rfl
@[simp] theorem State.modScreen_resetPending : (s.modScreen n f).resetPending = s.resetPending := rfl
@[simp] theorem State.modScreen_taken : (s.modScreen n f).taken = s.taken := rfl
@[simp] theorem State.modScreen_freeCount : (s.modScreen n f).freeCount = s.freeCount := rfl
@[simp] theorem State.modScreen_pending : (s.modScreen n f).pending = s.pending := rfl
end

/-! ### modLine -/

section
variable (s : State) (l : Fin 16) (f : Line → Line)
@[simp] theorem State.modLine_powered : (s.modLine l f).powered = s.powered := rfl
@[simp] theorem State.modLine_straps : (s.modLine l f).straps = s.straps := rfl
@[simp] theorem State.modLine_blockCounter : (s.modLine l f).blockCounter = s.blockCounter := rfl
@[simp] theorem State.modLine_frameIndex : (s.modLine l f).frameIndex = s.frameIndex := rfl
@[simp] theorem State.modLine_ports : (s.modLine l f).ports = s.ports := rfl
@[simp] theorem State.modLine_arbiters : (s.modLine l f).arbiters = s.arbiters := rfl
@[simp] theorem State.modLine_screens : (s.modLine l f).screens = s.screens := rfl
@[simp] theorem State.modLine_loaded : (s.modLine l f).loaded = s.loaded := rfl
@[simp] theorem State.modLine_staging : (s.modLine l f).staging = s.staging := rfl
@[simp] theorem State.modLine_freeStack : (s.modLine l f).freeStack = s.freeStack := rfl
@[simp] theorem State.modLine_screenLocks : (s.modLine l f).screenLocks = s.screenLocks := rfl
@[simp] theorem State.modLine_partLock : (s.modLine l f).partLock = s.partLock := rfl
@[simp] theorem State.modLine_resetPending : (s.modLine l f).resetPending = s.resetPending := rfl
@[simp] theorem State.modLine_taken : (s.modLine l f).taken = s.taken := rfl
@[simp] theorem State.modLine_freeCount : (s.modLine l f).freeCount = s.freeCount := rfl
@[simp] theorem State.modLine_pending : (s.modLine l f).pending = s.pending := rfl
end

/-! ### Reading an updated item -/

/-! The index is written as a number, the form `simp` brings an index to. -/

@[simp] theorem State.modPort_same (s : State) (p : Fin 12) (f : Port → Port) :
    (s.modPort p f).ports[p.val] = f s.ports[p.val] := by simp [State.modPort]

theorem State.modPort_other (s : State) (p q : Fin 12) (f : Port → Port) (h : q ≠ p) :
    (s.modPort p f).ports[q.val] = s.ports[q.val] := by
  simp [State.modPort, Fin.val_inj, Ne.symm h]

theorem State.modPort_get (s : State) (p q : Fin 12) (f : Port → Port) :
    (s.modPort p f).ports[q.val] = if q = p then f s.ports[p.val] else s.ports[q.val] := by
  by_cases h : q = p
  · subst h; simp
  · simp [h, s.modPort_other p q f h]

@[simp] theorem State.modArb_same (s : State) (p : Fin 12) (f : Arbiter → Arbiter) :
    (s.modArb p f).arbiters[p.val] = f s.arbiters[p.val] := by simp [State.modArb]

theorem State.modArb_other (s : State) (p q : Fin 12) (f : Arbiter → Arbiter) (h : q ≠ p) :
    (s.modArb p f).arbiters[q.val] = s.arbiters[q.val] := by
  simp [State.modArb, Fin.val_inj, Ne.symm h]

theorem State.modArb_get (s : State) (p q : Fin 12) (f : Arbiter → Arbiter) :
    (s.modArb p f).arbiters[q.val] = if q = p then f s.arbiters[p.val] else s.arbiters[q.val] := by
  by_cases h : q = p
  · subst h; simp
  · simp [h, s.modArb_other p q f h]

@[simp] theorem State.modScreen_same (s : State) (n : Fin 8) (f : Screen → Screen) :
    (s.modScreen n f).screens[n.val] = f s.screens[n.val] := by simp [State.modScreen]

theorem State.modScreen_other (s : State) (n m : Fin 8) (f : Screen → Screen) (h : m ≠ n) :
    (s.modScreen n f).screens[m.val] = s.screens[m.val] := by
  simp [State.modScreen, Fin.val_inj, Ne.symm h]

theorem State.modScreen_get (s : State) (n m : Fin 8) (f : Screen → Screen) :
    (s.modScreen n f).screens[m.val] = if m = n then f s.screens[n.val] else s.screens[m.val] := by
  by_cases h : m = n
  · subst h; simp
  · simp [h, s.modScreen_other n m f h]

@[simp] theorem State.modLine_same (s : State) (l : Fin 16) (f : Line → Line) :
    (s.modLine l f).lines[l.val] = f s.lines[l.val] := by simp [State.modLine]

theorem State.modLine_other (s : State) (l k : Fin 16) (f : Line → Line) (h : k ≠ l) :
    (s.modLine l f).lines[k.val] = s.lines[k.val] := by
  simp [State.modLine, Fin.val_inj, Ne.symm h]

theorem State.modLine_get (s : State) (l k : Fin 16) (f : Line → Line) :
    (s.modLine l f).lines[k.val] = if k = l then f s.lines[l.val] else s.lines[k.val] := by
  by_cases h : k = l
  · subst h; simp
  · simp [h, s.modLine_other l k f h]

/-! ### Updates of a part of a screen -/

section
variable (s : State) (n : Fin 8)
@[simp] theorem State.modCtx_eq (f : Context → Context) :
    s.modCtx n f = s.modScreen n fun x => { x with ctx := f x.ctx } := rfl
@[simp] theorem State.modLink_eq (f : ScreenPort → ScreenPort) :
    s.modLink n f = s.modScreen n fun x => { x with link := f x.link } := rfl
@[simp] theorem State.modDec_eq (f : Decoder → Decoder) :
    s.modDec n f = s.modScreen n fun x => { x with dec := f x.dec } := rfl
@[simp] theorem State.modEng_eq (f : Engine → Engine) :
    s.modEng n f = s.modScreen n fun x => { x with eng := f x.eng } := rfl
@[simp] theorem State.modMon_eq (f : Monitor → Monitor) :
    s.modMon n f = s.modScreen n fun x => { x with mon := f x.mon } := rfl
@[simp] theorem State.modCues_eq (f : List Cue → List Cue) :
    s.modCues n f = s.modScreen n fun x => { x with cues := f x.cues } := rfl
@[simp] theorem State.modNotice_eq (f : NoticeUnit → NoticeUnit) :
    s.modNotice n f = s.modScreen n fun x => { x with notice := f x.notice } := rfl
@[simp] theorem State.setQuiet_eq (q : Option Long) :
    s.setQuiet n q = s.modScreen n fun x => { x with quiet := q } := rfl
end

/-! ### The queue of waiting commands, and a command put in front -/

@[simp] theorem State.withCommand_pending (s : State) (c : Instr) : (s.withCommand c).pending = c :: s.pending := rfl
@[simp] theorem State.powerOn_pending (straps : BitVec 4) (q : List Instr) : (State.powerOn straps q).pending = q := rfl
@[simp] theorem State.reset_pending : State.reset.pending = [] := rfl
@[simp] theorem State.takeShare_pending (s : State) (x : Share) : (s.takeShare x).pending = s.pending := rfl
@[simp] theorem State.setLock_pending (s : State) (screen : BitVec 4) (holder : Byte) :
    (s.setLock screen holder).pending = s.pending := by
  unfold State.setLock; split <;> rfl

end Sys2Proof.Machine
end

