-- ==== Sys2Proof/Laws/Changes.lean ====
section
/-! SUPPORT. What a step is made of. `Change` lists the single changes that the part's operations make to State, each with what
it keeps; `Path` is a run of them; and `exec_path` says once that every command is such a run, so that an invariant of the
part is shown by looking at each single change. -/

namespace Sys2Proof.Machine

/-- Two engines with the same section counts and delays. -/
def SameLoad (e e' : Engine) : Prop :=
  ∀ (k : Bank) (c : Fin 16), (e'.bank k)[c.val].sections.length = (e.bank k)[c.val].sections.length ∧
    (e'.bank k)[c.val].delay = (e.bank k)[c.val].delay

/-- A monitor's update that leaves instances, table and summary, and keeps the mark queue short. -/
def MarksOnly (f : Monitor → Monitor) : Prop :=
  ∀ m : Monitor, (f m).summary = m.summary ∧ (f m).alarms = m.alarms ∧ (f m).table = m.table ∧
    (m.marks.length ≤ 8 → (f m).marks.length ≤ 8)

/-- A single change of State, but for a response placed in a queue. -/
inductive Change : State → State → Prop where
  /-- A port changes and stays as `Port.Safe` says. -/
  | port {s : State} (p : Fin 12) (f : Port → Port) (h : s.ports[p].Safe → (f s.ports[p]).Safe) : Change s (s.modPort p f)
  /-- An arbiter changes, its response queue not growing. -/
  | arb {s : State} (p : Fin 12) (f : Arbiter → Arbiter) (h : (f s.arbiters[p]).queue.length ≤ s.arbiters[p].queue.length) :
    Change s (s.modArb p f)
  /-- A screen context changes. -/
  | ctx {s : State} (n : Fin 8) (f : Context → Context) : Change s (s.modCtx n f)
  /-- A screen port changes. -/
  | link {s : State} (n : Fin 8) (f : Screen → ScreenPort) : Change s (s.modScreen n fun x => { x with link := f x })
  /-- The decode unit changes. -/
  | dec {s : State} (n : Fin 8) (f : Decoder → Decoder) : Change s (s.modDec n f)
  /-- The engine changes, with every section count and delay kept. -/
  | eng {s : State} (n : Fin 8) (f : Engine → Engine) (h : ∀ e, e.Safe → (f e).Safe)
    (l : SameLoad s.screens[n].eng (f s.screens[n].eng)) : Change s (s.modEng n f)
  /-- A record is loaded, within the budgets. -/
  | load {s : State} (n : Fin 8) (f : Engine → Engine) (h : ∀ e, e.Safe → (f e).Safe)
    (l : (s.modEng n f).withinBudget = true) : Change s (s.modEng n f)
  /-- Alarm instances change, and the summary is formed and handed on. -/
  | alarm {s : State} (n : Fin 8) (f : Monitor → Monitor) (h : ∀ m, m.marks.length ≤ 8 → (f m).marks.length ≤ 8) :
    Change s (s.alarmEvent n f)
  /-- The pending set or the mark queue changes. -/
  | mon {s : State} (n : Fin 8) (f : Monitor → Monitor) (h : MarksOnly f) : Change s (s.modMon n f)
  /-- A screen plays a frame. -/
  | frame {s : State} (n : Fin 8) (x : Inputs) : Change s (s.modScreen n (Screen.frame x))
  /-- Cues change in place. -/
  | cues {s : State} (n : Fin 8) (g : Cue → Cue)
    (h : ∀ c, (g c).id = c.id ∧ (g c).trigger = c.trigger ∧ (g c).record = c.record) : Change s (s.modCues n (List.map g))
  /-- A cue is loaded. -/
  | cueIn {s t : State} (n : Fin 8) (k : CueOperand) (h : s.loadCue n k = some t) : Change s t
  /-- A cue is deleted. -/
  | cueOut {s : State} (n : Fin 8) (id : Nat) : Change s (State.deleteCue n id s)
  /-- A quiet interval opens or closes. -/
  | quiet {s : State} (n : Fin 8) (q : Option Long) : Change s (s.setQuiet n q)
  /-- The notice unit changes, with its stack as it must stand. -/
  | notice {s : State} (n : Fin 8) (f : NoticeUnit → NoticeUnit) (h : ∀ u, u.Safe → (f u).Safe) : Change s (s.modNotice n f)
  /-- A notice is chosen. -/
  | choice {s : State} (n : Fin 8) : Change s (State.choose n s)
  /-- A notice is completed. -/
  | done {s : State} (n : Fin 8) (e : StackEntry) (rest : List StackEntry) (h : s.screens[n].notice.stack = e :: rest) :
    Change s (s.modScreen n fun x => { x with mon := x.mon.noticeAgain e, notice := x.notice.pop e rest })
  /-- A line in CUE mode is driven. -/
  | drive {s : State} (l : Fin 16) (counter : Long) (d : Drive) (h : s.lines[l].mode = .cue) :
    Change s (s.modLine l (Line.drive counter d))
  /-- A line's record is written. -/
  | lineSet {s : State} (l : Fin 16) (owner : Option (Fin 8)) (mode : LineMode) (threshold : Nat) :
    Change s (s.modLine l fun _ => s.lineOf owner mode threshold)
  /-- A line's pulse ends. -/
  | pulse {s : State} (l : Fin 16) (counter : Long) : Change s (s.modLine l (Line.endPulse counter))
  /-- Every line's pulse is looked at. -/
  | pulses {s : State} (counter : Long) : Change s (s.tickLines counter)
  /-- Anything outside ports, arbiters, screens, lines and cues changes. -/
  | rest {s t : State} (h : t.ports = s.ports ∧ t.arbiters = s.arbiters ∧ t.screens = s.screens ∧ t.lines = s.lines ∧
      t.freeStack = s.freeStack ∧ t.pending = s.pending) : Change s t
  /-- Every block takes its power-on values. -/
  | restart {s : State} (straps : BitVec 4) (frame free : Nat) :
    Change s { State.powerOn straps s.pending with frameIndex := frame, freeCount := free }
  /-- Power is lost. -/
  | powerLoss {s : State} : Change s s.losePower

/-- A run of single changes. -/
def Path : State → State → Prop := Relation.ReflTransGen Change

/-- A command's whole effect: a run of single changes, and at most one response placed at the end, in a queue with room. -/
def Run (s t : State) : Prop :=
  ∃ u, Path s u ∧ (t = u ∨ ∃ (h : ReqHead) (k : BitVec 11) (payload : List Word) (r : Bool),
    u.arbiters[h.port].queue.length < 4 ∧ t = u.place h k payload r)

/-! ### Runs -/

theorem Path.refl (s : State) : Path s s := Relation.ReflTransGen.refl

theorem Path.trans {s t u : State} (h : Path s t) (k : Path t u) : Path s u := Relation.ReflTransGen.trans h k

/-- A run from its last part back: the form that elaborates well. -/
theorem Path.after {s t u : State} (k : Path t u) (h : Path s t) : Path s u := Relation.ReflTransGen.trans h k

theorem Change.path {s t : State} (h : Change s t) : Path s t := Relation.ReflTransGen.single h

theorem path_ite {s a b : State} (c : Prop) [Decidable c] (ha : c → Path s a) (hb : ¬c → Path s b) :
    Path s (if c then a else b) := by
  split
  · exact ha ‹_›
  · exact hb ‹_›

theorem path_forEach {α : Type} (f : α → State → State) (h : ∀ a s, Path s (f a s)) (items : List α) (s : State) :
    Path s (forEach items f s) := by
  induction items generalizing s with
  | nil => exact .refl s
  | cons a l ih => exact (h a s).trans (ih (f a s))

theorem path_unlessTaken (s : State) (x : Share) (f : State → State) (h : Path s (f s)) : Path s (s.unlessTaken x f) := by
  unfold State.unlessTaken
  split
  · exact .refl s
  · exact h

theorem path_rest {s t : State} (h1 : t.ports = s.ports) (h2 : t.arbiters = s.arbiters) (h3 : t.screens = s.screens)
    (h4 : t.lines = s.lines) (h5 : t.freeStack = s.freeStack) (h6 : t.pending = s.pending) : Path s t :=
  (Change.rest ⟨h1, h2, h3, h4, h5, h6⟩).path

end Sys2Proof.Machine
end

