-- ==== Sys2Proof/Laws/Paths.lean ====
section
/-! SUPPORT. Each shared operation of the part is a run of single changes: one lemma for each. -/

namespace Sys2Proof.Machine

/-! ### Engine operations keep the load -/

theorem SameLoad.refl (e : Engine) : SameLoad e e := fun _ _ => ⟨rfl, rfl⟩

theorem SameLoad.trans {a b c : Engine} (h : SameLoad a b) (k : SameLoad b c) : SameLoad a c :=
  fun x i => ⟨(k x i).1.trans (h x i).1, (k x i).2.trans (h x i).2⟩

theorem sameLoad_of_banks {e e' : Engine} (ha : e'.bankA = e.bankA) (hb : e'.bankB = e.bankB) : SameLoad e e' := by
  intro k c
  cases k <;> simp [Engine.bank, ha, hb]

theorem sameLoad_restBank (k : Bank) (e : Engine) : SameLoad e (e.restBank k) := by
  intro j c
  cases k <;> cases j <;> simp [Engine.restBank, Engine.setBank, Engine.bank, Chain.rest]

theorem restBank_safe (k : Bank) (e : Engine) (h : e.Safe) : (e.restBank k).Safe := by
  cases k <;> simpa [Engine.restBank, Engine.setBank, Engine.Safe] using h

theorem endCrossfade_safe (e : Engine) (h : e.Safe) : e.endCrossfade.Safe := by
  unfold Engine.endCrossfade
  split
  · exact restBank_safe _ _ h
  · exact h

theorem sameLoad_endCrossfade (e : Engine) : SameLoad e e.endCrossfade := by
  unfold Engine.endCrossfade
  split
  · exact SameLoad.trans (sameLoad_of_banks rfl rfl) (sameLoad_restBank _ _)
  · exact .refl e

theorem enterDark_safe (e : Engine) : e.enterDark.Safe := by
  unfold Engine.enterDark
  apply restBank_safe
  apply restBank_safe
  simp [Engine.Safe]

theorem sameLoad_enterDark (e : Engine) : SameLoad e e.enterDark :=
  ((sameLoad_endCrossfade e).trans (sameLoad_of_banks rfl rfl)).trans
    ((sameLoad_restBank .a _).trans (sameLoad_restBank .b _))

theorem select_safe (x : Bank) (e : Engine) (h : e.Safe) : (e.select x).Safe := by
  unfold Engine.select
  split <;> exact h

theorem sameLoad_select (x : Bank) (e : Engine) : SameLoad e (e.select x) := by
  unfold Engine.select
  split <;> exact sameLoad_of_banks rfl rfl

theorem startSwitch_safe (st : ScreenState) (e : Engine) (h : e.Safe) : (e.startSwitch st).Safe := by
  unfold Engine.startSwitch
  split
  · split
    · exact h
    · exact restBank_safe _ _ h
    · exact restBank_safe _ _ h
  · exact h

theorem sameLoad_startSwitch (st : ScreenState) (e : Engine) : SameLoad e (e.startSwitch st) := by
  unfold Engine.startSwitch
  split
  · split
    · exact sameLoad_of_banks rfl rfl
    · exact (sameLoad_of_banks rfl rfl).trans (sameLoad_restBank _ _)
    · exact (sameLoad_of_banks rfl rfl).trans (sameLoad_restBank _ _)
  · exact .refl e

theorem takeFade_safe (t d : Nat) (e : Engine) (h : e.Safe) : (e.takeFade t d).Safe := by
  obtain ⟨h1, h2⟩ := h
  unfold Engine.takeFade
  simp only
  split
  · simp [Engine.Safe]
  · split
    · simp [Engine.Safe, h1]
    · simp [Engine.Safe, h1]

theorem sameLoad_takeFade (t d : Nat) (e : Engine) : SameLoad e (e.takeFade t d) := by
  unfold Engine.takeFade
  simp only
  split
  · exact sameLoad_of_banks rfl rfl
  · split <;> exact sameLoad_of_banks rfl rfl

theorem fadeStep_safe (e : Engine) (h : e.Safe) : e.fadeStep.Safe := by
  obtain ⟨h1, h2⟩ := h
  unfold Engine.fadeStep
  split
  · exact ⟨h1, h2⟩
  · next f hf =>
    have hf' := h2 f hf
    split
    · split
      · simp [Engine.Safe, hf']
      · next h3 => exact ⟨by simp only; omega, h2⟩
    · split
      · simp [Engine.Safe, hf']
      · next h3 => exact ⟨by simp only; omega, h2⟩

theorem sameLoad_fadeStep (e : Engine) : SameLoad e e.fadeStep := by
  unfold Engine.fadeStep
  split
  · exact .refl e
  · split <;> split <;> exact sameLoad_of_banks rfl rfl

/-! ### Alarm events -/

@[simp] theorem clearWhere_marks (cond : Fin 54 → Bool) (m : Monitor) : (m.clearWhere cond).marks = m.marks := by
  simp only [Monitor.clearWhere]

@[simp] theorem clearSuppressed_marks (m : Monitor) : m.clearSuppressed.marks = m.marks := by
  simp only [Monitor.clearSuppressed, clearWhere_marks]

theorem offer_marks (id : Fin 54) (m : Monitor) : (m.offer id).marks = m.marks := by
  unfold Monitor.offer Monitor.setPending
  split
  · simp only
    split
    · split <;> rfl
    · rfl
  · rfl

theorem path_occur (s : State) (n : Fin 8) (id : Fin 54) : Path s (s.occur n id) :=
  (Change.alarm n _ fun m h => by rw [offer_marks]; exact h).path

theorem path_quietOpens (s : State) (n : Fin 8) : Path s (s.quietOpens n) := by
  unfold State.quietOpens
  exact (Change.alarm n _ (by intro m h; simpa using h)).path

theorem path_muteHanded (s : State) (n : Fin 8) : Path s (s.muteHanded n) := by
  unfold State.muteHanded
  exact (Change.alarm n _ (by intro m h; simpa using h)).path

theorem path_faderZeroHanded (s : State) (n : Fin 8) : Path s (s.faderZeroHanded n) := by
  unfold State.faderZeroHanded
  exact (Change.alarm n _ (by intro m h; simpa using h)).path

theorem path_silentStops (s : State) (n : Fin 8) : Path s (s.silentStops n) := by
  unfold State.silentStops
  exact (Change.alarm n _ (by intro m h; simpa using h)).path

/-! ### The engine's requests -/

theorem path_takeFade (s : State) (n : Fin 8) (t d : Nat) : Path s (s.takeFade n t d) := by
  have h : Path s (s.modEng n (Engine.takeFade t d)) :=
    (Change.eng n _ (fun e => takeFade_safe t d e) (sameLoad_takeFade t d _)).path
  unfold State.takeFade
  simp only
  split
  · exact h.trans (path_faderZeroHanded _ n)
  · exact h

theorem path_takeMute (s : State) (n : Fin 8) (on : Bool) : Path s (s.takeMute n on) := by
  have h : Path s (s.modEng n fun e => { e with mute := on }) :=
    (Change.eng n _ (by intro e h; exact h) (sameLoad_of_banks rfl rfl)).path
  unfold State.takeMute
  simp only
  split
  · exact h.trans (path_muteHanded _ n)
  · exact h

theorem path_select (s : State) (n : Fin 8) (x : Bank) : Path s (s.modEng n (Engine.select x)) :=
  (Change.eng n _ (select_safe x) (sameLoad_select x _)).path

/-! ### Screens -/

theorem path_leaveRunning (s : State) (n : Fin 8) : Path s (s.leaveRunning n) := by
  unfold State.leaveRunning
  split
  · exact ((Change.quiet n none).path.trans (Change.ctx n _).path).trans (path_silentStops _ n)
  · exact .refl s

theorem path_enterDark (s : State) (n : Fin 8) : Path s (s.enterDark n) := by
  unfold State.enterDark
  simp only
  refine Path.trans ?_ (path_faderZeroHanded _ n)
  refine Path.trans ?_ (Change.dec n _).path
  refine Path.trans ?_ (Change.eng n _ (fun e _ => enterDark_safe e) (sameLoad_enterDark _)).path
  exact (path_leaveRunning s n).trans (Change.ctx n _).path

theorem path_enterStandby (s : State) (n : Fin 8) : Path s (s.enterStandby n) := by
  unfold State.enterStandby
  exact (path_leaveRunning s n).trans (Change.ctx n _).path

theorem path_enterRunning (s : State) (n : Fin 8) : Path s (s.enterRunning n) := by
  unfold State.enterRunning
  exact (Change.ctx n _).path

theorem path_changeState (s : State) (n : Fin 8) (st : ScreenState) : Path s (s.changeState n st) := by
  unfold State.changeState
  split
  · exact .refl s
  · cases st
    · exact path_enterDark s n
    · exact path_enterStandby s n
    · exact path_enterRunning s n

theorem path_hearAnnouncement (p : Fin 12) (st : PortState) (n : Fin 8) (s : State) :
    Path s (State.hearAnnouncement p st n s) := by
  unfold State.hearAnnouncement
  cases st <;> simp only
  · exact .refl s
  · exact .refl s
  · exact path_ite _ (fun _ => (Change.ctx n _).path) fun _ => .refl s
  · exact .refl s
  · exact path_ite _ (fun _ => (Change.ctx n _).path) fun _ => .refl s
  · exact path_ite _ (fun _ => path_enterStandby s n) fun _ => .refl s

theorem path_announce (s : State) (p : Fin 12) (st : PortState) : Path s (s.announce p st) :=
  path_forEach _ (path_hearAnnouncement p st) _ s

theorem path_slipEvent (s : State) (p : Fin 12) : Path s (s.slipEvent p) :=
  path_forEach _ (fun n s => path_ite _ (fun _ => path_occur s n slipId) fun _ => .refl s) _ s

theorem path_settleScreen (n : Fin 8) (s : State) : Path s (s.settleScreen n) := by
  unfold State.settleScreen
  simp only
  exact path_ite _ (fun _ => (Change.ctx n _).path.trans (Change.dec n _).path) fun _ => (Change.ctx n _).path

/-! ### Cues -/

theorem path_takeQuiet (s : State) (n : Fin 8) (d : Nat) : Path s (s.takeQuiet n d) := by
  unfold State.takeQuiet
  simp only
  refine path_ite _ (fun _ => (Change.quiet n none).path) fun _ => ?_
  refine path_ite _ (fun _ => (Change.quiet n _).path) fun _ => ?_
  exact (Change.quiet n _).path.trans (path_quietOpens _ n)

theorem dropLevelThree_length (l : List Mark) : (dropLevelThree l).length ≤ l.length :=
  (List.dropWhile_sublist _).length_le

theorem pushMark_marksOnly (mark : Mark) : MarksOnly (Monitor.pushMark mark) := by
  intro m
  unfold Monitor.pushMark
  split
  · refine ⟨rfl, rfl, rfl, fun h => ?_⟩
    have := dropLevelThree_length (m.marks.tail ++ [mark])
    simp only [List.length_append, List.length_tail, List.length_singleton] at this
    simp only
    omega
  · refine ⟨rfl, rfl, rfl, fun h => ?_⟩
    have := dropLevelThree_length (m.marks ++ [mark])
    simp only [List.length_append, List.length_singleton] at this
    simp only
    omega

theorem drivenBy_mode {n : Fin 8} {l : Line} (h : l.drivenBy n = true) : l.mode = .cue := by
  simp [Line.drivenBy] at h
  exact h.2

theorem path_applyAction (s : State) (n : Fin 8) (id : Nat) (a : CueAction) (h : s.declines n a = false) :
    Path s (s.applyAction n id a) := by
  cases a with
  | contact line d =>
    simp only [State.applyAction, State.declines] at h ⊢
    cases hl : index? 16 line with
    | none => exact .refl s
    | some l =>
      simp only [hl, Bool.not_eq_false'] at h
      exact (Change.drive l _ d (drivenBy_mode h)).path
  | fade t d => exact path_takeFade s n t d
  | mute on => exact path_takeMute s n on
  | eqBank x => exact path_select s n x
  | format tag => simp only [State.applyAction]; exact (Change.ctx n _).path
  | source role => simp only [State.applyAction]; exact (Change.ctx n _).path
  | quiet d => exact path_takeQuiet s n d
  | mark level => simp only [State.applyAction]; exact (Change.mon n _ (pushMark_marksOnly _)).path

theorem path_updateCue (s : State) (n : Fin 8) (id : Nat) (f : Cue → Cue)
    (h : ∀ c, (f c).id = c.id ∧ (f c).trigger = c.trigger ∧ (f c).record = c.record) :
    Path s (s.modCues n (updateCue id f)) := by
  refine (Change.cues n (fun c => if c.id == id then f c else c) fun c => ?_).path
  split
  · exact h c
  · exact ⟨rfl, rfl, rfl⟩

theorem path_fireCue (s : State) (n : Fin 8) (c : Cue) : Path s (s.fireCue n c) := by
  unfold State.fireCue
  simp only
  refine Path.trans ?_ (path_updateCue _ n c.id _ (by intro c; exact ⟨rfl, rfl, rfl⟩))
  split
  · exact .refl s
  · next h => exact path_applyAction s n c.id c.action (by simpa using h)

theorem path_handleCue (fate : Cue → CueFate) (n : Fin 8) (id : Nat) (s : State) :
    Path s (State.handleCue fate n id s) := by
  unfold State.handleCue
  split
  · exact .refl s
  · next c _ =>
    split
    · exact .refl s
    · exact path_fireCue s n c
    · exact (path_updateCue s n id _ (by intro c; exact ⟨rfl, rfl, rfl⟩)).trans (path_occur _ n cueId)
    · exact path_updateCue s n id _ (by intro c; exact ⟨rfl, rfl, rfl⟩)

theorem path_passCues (fate : Cue → CueFate) (n : Fin 8) (s : State) : Path s (s.passCues fate n) :=
  path_forEach _ (path_handleCue fate n) _ s

theorem rearmAhead_keeps (program position : Long) (c : Cue) :
    (rearmAhead program position c).id = c.id ∧ (rearmAhead program position c).trigger = c.trigger ∧
      (rearmAhead program position c).record = c.record := by
  unfold rearmAhead
  split <;> exact ⟨rfl, rfl, rfl⟩

theorem clearLoadDue_keeps (program : Long) (c : Cue) :
    (clearLoadDue program c).id = c.id ∧ (clearLoadDue program c).trigger = c.trigger ∧
      (clearLoadDue program c).record = c.record := by
  unfold clearLoadDue
  split <;> exact ⟨rfl, rfl, rfl⟩

theorem path_handleUpdate (s : State) (n : Fin 8) (cls : Step) (program position : Long) :
    Path s (s.handleUpdate n cls program position) := by
  unfold State.handleUpdate
  simp only
  refine Path.trans ?_ (Change.cues n _ (clearLoadDue_keeps program)).path
  cases cls
  · exact path_passCues _ n s
  · exact path_passCues _ n s
  · exact path_passCues _ n s
  · exact (Change.cues n _ (rearmAhead_keeps program position)).path.trans (path_passCues _ n _)

theorem path_followUpdate (s : State) (n : Fin 8) (play : Bool) : Path s (s.followUpdate n play) := by
  unfold State.followUpdate
  simp only
  exact path_ite _ (fun _ => path_enterRunning s n) fun _ =>
    path_ite _ (fun _ => path_enterStandby s n) fun _ => .refl s

theorem path_takeUpdate (s : State) (n : Fin 8) (u : Update) : Path s (s.takeUpdate n u) := by
  unfold State.takeUpdate
  simp only
  refine Path.trans ?_ (Change.ctx n _).path
  exact path_ite _ (fun _ => path_handleUpdate s n _ _ _) fun _ => .refl s

theorem path_raiseUpdate (s : State) (p : Fin 12) (u : Update) : Path s (s.raiseUpdate p u) := by
  refine path_forEach _ (fun n s => ?_) _ s
  unfold State.hearUpdate
  exact path_ite _ (fun _ => (path_followUpdate s n _).trans (path_takeUpdate _ n u)) fun _ => .refl s

theorem path_raiseLost (s : State) (p : Fin 12) (fields : Option LostFields) : Path s (s.raiseLost p fields) := by
  refine path_forEach _ (fun n s => ?_) _ s
  unfold State.hearLost
  simp only
  refine path_ite _ (fun _ => ?_) fun _ => .refl s
  cases fields with
  | none => exact (Change.ctx n _).path
  | some f =>
    exact (path_ite _ (fun _ => path_enterStandby s n) fun _ => .refl s).trans (Change.ctx n _).path

theorem path_endQuiet (counter : Long) (n : Fin 8) (s : State) : Path s (s.endQuiet counter n) := by
  unfold State.endQuiet
  exact path_ite _ (fun _ => (Change.quiet n none).path) fun _ => .refl s

end Sys2Proof.Machine
end

