-- ==== Sys2Proof/Laws/PathsLinks.lean ====
section
/-! SUPPORT. Notices, arbiters and program ports as runs of single changes. -/

namespace Sys2Proof.Machine

/-! ### Notices and arbiters -/

theorem path_rest_of (s t : State) (h : t.ports = s.ports ∧ t.arbiters = s.arbiters ∧ t.screens = s.screens ∧
    t.lines = s.lines ∧ t.freeStack = s.freeStack ∧ t.pending = s.pending) : Path s t := (Change.rest h).path

theorem path_resetDue (s : State) : Path s s.resetDue := path_rest rfl rfl rfl rfl rfl rfl

theorem path_arb (s : State) (p : Fin 12) (f : Arbiter → Arbiter) (h : ∀ a, (f a).queue.length ≤ a.queue.length) :
    Path s (s.modArb p f) := (Change.arb p f (h _)).path

theorem path_freeChannel (s : State) (p : Fin 12) (m : Sending) (lost : Bool) : Path s (s.freeChannel p m lost) := by
  unfold State.freeChannel
  simp only
  have h : Path s (s.modArb p fun a => { a with channel := none }) := path_arb s p _ fun a => Nat.le_refl _
  cases m.owner with
  | resp => exact h.trans (path_ite _ (fun _ => path_resetDue _) fun _ => .refl _)
  | screen n => exact h.trans (Change.notice n _ (by intro u h; exact h)).path

theorem path_messageSent (p : Fin 12) (s : State) : Path s (s.messageSent p) := by
  unfold State.messageSent
  split
  · exact path_ite _ (fun _ => path_freeChannel s p _ _) fun _ => .refl s
  · exact .refl s

theorem path_abandonMessage (s : State) (p : Fin 12) : Path s (s.abandonMessage p) := by
  unfold State.abandonMessage
  split
  · refine path_ite _ (fun _ => path_freeChannel s p _ _) fun _ => ?_
    exact Path.after (path_freeChannel _ p _ _) (path_arb s p _ fun a => Nat.le_refl _)
  · exact .refl s

theorem path_reload (s : State) (p : Fin 12) : Path s (s.reload p) := by
  unfold State.reload
  exact path_arb s p _ fun a => Nat.le_refl _

theorem path_tickArbiter (p : Fin 12) (s : State) : Path s (s.tickArbiter p) := by
  unfold State.tickArbiter
  exact path_ite _ (fun _ => path_reload s p) fun _ => path_arb s p _ fun a => Nat.le_refl _

theorem path_expireOne (counter : Long) (p : Fin 12) (s : State) : Path s (s.expireOne counter p) := by
  unfold State.expireOne
  split
  · next r rest hq =>
    refine path_ite _ (fun _ => ?_) fun _ => .refl s
    simp only
    have h : Path s (s.modArb p fun a => { a with queue := rest, responsesExpired := bump a.responsesExpired }) :=
      (Change.arb p _ (by simp only; rw [hq]; simp)).path
    exact h.trans (path_ite _ (fun _ => path_resetDue _) fun _ => .refl _)
  · exact .refl s

theorem path_expireResponses (counter : Long) (p : Fin 12) (s : State) : Path s (s.expireResponses counter p) :=
  path_forEach _ (fun _ s => path_expireOne counter p s) _ s

theorem path_occupy (s : State) (p : Fin 12) (q : Requester) : Path s (s.occupy p q) := by
  unfold State.occupy
  cases q with
  | resp =>
    refine path_arb s p _ fun a => ?_
    split
    · next h => simp [h]
    · exact Nat.le_refl _
  | screen n =>
    simp only
    split
    · exact Path.after (Change.notice n _ (by intro u h; exact h)).path (path_arb s p _ fun a => Nat.le_refl _)
    · exact .refl s

theorem useGuarantee_queue (q : Requester) (a : Arbiter) : (a.useGuarantee q).queue = a.queue := by
  cases q <;> rfl

theorem path_grant (s : State) (p : Fin 12) : Path s (s.grant p) := by
  unfold State.grant
  refine path_ite _ (fun _ => ?_) fun _ => .refl s
  split
  · exact Path.after (path_occupy _ p _) (path_arb s p _ fun a => by rw [useGuarantee_queue])
  · split
    · exact Path.after (path_occupy _ p _) (path_arb s p _ fun a => Nat.le_refl _)
    · exact .refl s

/-! ### Program ports: updates that keep the buffer, the window and the state -/

theorem path_port (s : State) (p : Fin 12) (f : Port → Port) (h : s.ports[p].Safe → (f s.ports[p]).Safe) :
    Path s (s.modPort p f) := (Change.port p f h).path

/-- An update that leaves the state, the buffer and the window. -/
theorem path_portQuiet (s : State) (p : Fin 12) (f : Port → Port)
    (h : ∀ x, (f x).state = x.state ∧ (f x).buffer = x.buffer ∧ (f x).window = x.window) : Path s (s.modPort p f) := by
  refine path_port s p f fun hs => ?_
  obtain ⟨h1, h2, h3⟩ := h s.ports[p]
  unfold Port.Safe at hs ⊢
  rw [h1, h2, h3]
  exact hs

theorem path_count (s : State) (p : Fin 12) (f : PortCounters → PortCounters) : Path s (s.count p f) :=
  path_portQuiet s p _ fun _ => ⟨rfl, rfl, rfl⟩

theorem capturing_quiet (kind : ErrorKind) (index : Option Nat) (counter : Long) (x : Port) :
    (x.capturing kind index counter).state = x.state ∧ (x.capturing kind index counter).buffer = x.buffer ∧
      (x.capturing kind index counter).window = x.window := by
  unfold Port.capturing
  split <;> exact ⟨rfl, rfl, rfl⟩

theorem path_offerError (s : State) (p : Fin 12) (kind : ErrorKind) (index : Option Nat) (counter : Long) :
    Path s (s.offerError p kind index counter) :=
  path_portQuiet s p _ fun x => capturing_quiet kind index counter x

theorem path_discardMessage (s : State) (p : Fin 12) (index : Option Nat) (counter : Long) :
    Path s (s.discardMessage p index counter) :=
  Path.after (path_offerError _ p _ _ _) (path_count s p _)

/-! ### Program ports: changes of state -/

theorem path_leaveLocked (s : State) (p : Fin 12) (st : PortState) : Path s (s.leaveLocked p st) := by
  unfold State.leaveLocked
  refine Path.trans ?_ (path_announce _ p st)
  refine Path.trans ?_ (path_abandonMessage _ p)
  exact path_port s p _ fun _ => ⟨Nat.zero_le _, fun _ => ⟨rfl, rfl⟩⟩

theorem path_loseHoldover (s : State) (p : Fin 12) (h : s.ports[p].state ≠ .locked) : Path s (s.loseHoldover p) := by
  unfold State.loseHoldover
  refine Path.trans (path_port s p _ fun hs => ?_) (path_announce _ p _)
  exact ⟨hs.1, fun _ => hs.2 h⟩

theorem write_safe (slots : Slots) (x : Port) (h : x.Safe) (hl : x.state = .locked) : (x.write slots).Safe := by
  obtain ⟨h1, -⟩ := h
  unfold Port.write
  split
  · refine ⟨?_, fun hn => absurd hl hn⟩
    simp only [List.length_append, List.length_tail, List.length_singleton]
    omega
  · refine ⟨?_, fun hn => absurd hl hn⟩
    simp only [List.length_append, List.length_singleton]
    omega

theorem path_writeBuffer (s : State) (p : Fin 12) (slots : Slots) (h : s.ports[p].state = .locked) :
    Path s (s.writeBuffer p slots) := by
  unfold State.writeBuffer
  simp only
  have hw : Path s (s.modPort p (Port.write slots)) := path_port s p _ fun hs => write_safe slots _ hs h
  exact path_ite _ (fun _ => hw.trans (path_slipEvent _ p)) fun _ => hw

theorem afterRead_safe (x : Port) (h : x.Safe) : x.afterRead.Safe := by
  unfold Port.afterRead
  split
  · next hl =>
    split
    · next hb =>
      refine ⟨?_, fun hn => absurd hl.1 hn⟩
      have := h.1
      rw [hb] at this
      simp only [List.length_cons] at this
      simp only
      omega
    · exact h
  · exact h

theorem path_readPort (p : Fin 12) (s : State) : Path s (s.readPort p) := by
  unfold State.readPort
  simp only
  have h : Path s (s.modPort p Port.afterRead) := path_port s p _ (afterRead_safe _)
  exact path_ite _ (fun _ => h.trans (path_slipEvent _ p)) fun _ => h

theorem modPort_state (s : State) (p : Fin 12) (f : Port → Port) (h : (f s.ports[p]).state = s.ports[p].state) :
    (s.modPort p f).ports[p].state = s.ports[p].state := by simpa using h

theorem path_takeCheckError (s : State) (p : Fin 12) (index : Option Nat) (h : s.ports[p].state = .locked) :
    Path s (s.takeCheckError p index) := by
  unfold State.takeCheckError
  simp only
  have h1 := path_count s p fun c => { c with checkErrors := bump c.checkErrors }
  have h1s : (s.count p fun c => { c with checkErrors := bump c.checkErrors }).ports[p].state = .locked := by
    simp [State.count, ← h]
  generalize hs1 : (s.count p fun c => { c with checkErrors := bump c.checkErrors }) = s1 at h1 h1s ⊢
  have h2 := path_offerError s1 p .check index s1.blockCounter
  have h2s : (s1.offerError p .check index s1.blockCounter).ports[p].state = .locked := by
    unfold State.offerError
    rw [modPort_state _ _ _ (capturing_quiet _ _ _ _).1, h1s]
  generalize hs2 : s1.offerError p .check index s1.blockCounter = s2' at h2 h2s ⊢
  have h3 := path_portQuiet s2' p (fun x => { x with missRun := 0 }) fun _ => ⟨rfl, rfl, rfl⟩
  have h3s : (s2'.modPort p fun x => { x with missRun := 0 }).ports[p].state = .locked := by simpa using h2s
  generalize hs3 : s2'.modPort p (fun x => { x with missRun := 0 }) = s2 at h3 h3s ⊢
  refine ((h1.trans h2).trans h3).trans ?_
  refine path_ite _ (fun _ => ?_) fun _ => ?_
  · exact Path.after (path_leaveLocked _ p _) (path_count s2 p _)
  · refine Path.trans (path_port s2 p _ fun hs => ?_) (path_writeBuffer _ p _ ?_)
    · exact ⟨hs.1, fun hn => absurd h3s hn⟩
    · simpa using h3s

theorem path_takeSyncMiss (s : State) (p : Fin 12) (index : Option Nat) : Path s (s.takeSyncMiss p index) := by
  unfold State.takeSyncMiss
  simp only
  refine (path_offerError s p .sync index s.blockCounter).trans ?_
  refine Path.trans (path_portQuiet _ p (fun x => { x with missRun := x.missRun + 1 }) fun _ => ⟨rfl, rfl, rfl⟩) ?_
  exact path_ite _ (fun _ => path_leaveLocked _ p _) fun _ => .refl _

theorem path_takeLocked (s : State) (p : Fin 12) (cls : FrameClass) (slots : Slots) (index : Option Nat)
    (h : s.ports[p].state = .locked) : Path s (s.takeLocked p cls slots index) := by
  unfold State.takeLocked
  cases cls <;> simp only
  · refine Path.after (path_writeBuffer _ p _ ?_) (path_portQuiet s p _ fun _ => ⟨rfl, rfl, rfl⟩)
    simpa using h
  · exact path_takeSyncMiss s p index
  · exact path_takeCheckError s p index h
  · refine Path.trans (path_portQuiet s p (fun x => { x with missRun := 0 }) fun _ => ⟨rfl, rfl, rfl⟩) ?_
    refine path_ite _ (fun _ => Path.after (path_leaveLocked _ p _) (path_count _ p _)) fun _ => ?_
    exact path_writeBuffer _ p _ (by simpa using h)
  · exact path_takeSyncMiss s p index

theorem path_holdoverErrors (s : State) (p : Fin 12) (cls : FrameClass) (index : Option Nat) :
    Path s (s.holdoverErrors p cls index) := by
  unfold State.holdoverErrors
  cases cls <;> simp only
  · exact .refl s
  · exact path_offerError s p _ _ _
  · exact Path.after (path_offerError _ p _ _ _) (path_count s p _)
  · exact .refl s
  · exact path_offerError s p _ _ _

theorem holdoverErrors_state (s : State) (p : Fin 12) (cls : FrameClass) (index : Option Nat) :
    (s.holdoverErrors p cls index).ports[p].state = s.ports[p].state := by
  unfold State.holdoverErrors
  cases cls <;> simp only
  · unfold State.offerError; rw [modPort_state _ _ _ (capturing_quiet _ _ _ _).1]
  · unfold State.offerError State.count
    rw [modPort_state _ _ _ (capturing_quiet _ _ _ _).1]
    simp
  · unfold State.offerError; rw [modPort_state _ _ _ (capturing_quiet _ _ _ _).1]

theorem path_takeSeeking (s : State) (p : Fin 12) (cls : FrameClass) (slots : Slots) (next : Option Nat)
    (h : s.ports[p].state ≠ .locked) : Path s (s.takeSeeking p cls slots next) := by
  unfold State.takeSeeking
  simp only
  generalize hs1 : (s.modPort p fun x =>
    { x with goodRun := nextGoodRun s.ports[p].goodRun cls
             expected := if nextGoodRun s.ports[p].goodRun cls = 0 then none else next }) = s1
  have h1 : Path s s1 := by
    subst hs1
    exact path_portQuiet s p _ fun _ => ⟨rfl, rfl, rfl⟩
  have h1s : s1.ports[p].state ≠ .locked := by
    subst hs1
    simpa using h
  refine h1.trans ?_
  refine path_ite _ (fun _ => ?_) fun _ => ?_
  · refine Path.trans ?_ (path_announce _ p _)
    refine Path.after (path_port _ p _ fun hs => ?_) (path_count s1 p _)
    exact ⟨hs.1, fun _ => hs.2 (by simpa [State.count] using h1s)⟩
  · refine path_ite _ (fun _ => ?_) fun _ => ?_
    · refine Path.after (path_announce _ p _) (path_port s1 p _ fun hs => ?_)
      exact ⟨hs.1, fun _ => hs.2 h1s⟩
    · refine path_ite _ (fun _ => ?_) fun _ => .refl s1
      refine Path.trans ?_ (path_announce _ p _)
      refine Path.after (path_port _ p _ fun hs => ?_) (path_count s1 p _)
      exact ⟨Nat.zero_le _, fun _ => ⟨rfl, rfl⟩⟩

theorem path_takeLinkFrame (s : State) (p : Fin 12) (cls : FrameClass) (slots : Slots) (carried : Nat)
    (index : Option Nat) : Path s (s.takeLinkFrame p cls slots carried index) := by
  unfold State.takeLinkFrame
  simp only
  generalize hs1 : (s.modPort p fun x => { x with stopRun := nextStopRun x.stopRun cls }) = s1
  have h1 : Path s s1 := by
    subst hs1
    exact path_portQuiet s p _ fun _ => ⟨rfl, rfl, rfl⟩
  have h1s : s1.ports[p].state = s.ports[p].state := by
    subst hs1
    simp
  refine h1.trans ?_
  split
  · exact .refl _
  · next hl =>
    refine Path.after (path_takeLocked _ p _ _ _ ?_) (path_portQuiet s1 p _ fun _ => ⟨rfl, rfl, rfl⟩)
    have h2 := h1s
    rw [hl] at h2
    simpa using h2
  · next hl =>
    refine Path.after (path_takeSeeking _ p _ _ _ ?_) (path_holdoverErrors s1 p cls index)
    rw [holdoverErrors_state, h1s, hl]; decide
  · next hl => exact path_takeSeeking s1 p _ _ _ (by rw [h1s, hl]; decide)
  · next hl => exact path_takeSeeking s1 p _ _ _ (by rw [h1s, hl]; decide)
  · next hl => exact path_takeSeeking s1 p _ _ _ (by rw [h1s, hl]; decide)

/-! ### Program ports: descriptors and service words -/

theorem path_goodDescriptor (s : State) (p : Fin 12) (u : Update) : Path s (s.goodDescriptor p u) := by
  unfold State.goodDescriptor
  refine path_ite _ (fun _ => ?_) fun _ => ?_
  · exact Path.after (path_raiseUpdate _ p u) (path_portQuiet s p _ fun _ => ⟨rfl, rfl, rfl⟩)
  · exact Path.after (path_raiseLost _ p _) (path_portQuiet s p _ fun _ => ⟨rfl, rfl, rfl⟩)

theorem path_badDescriptor (s : State) (p : Fin 12) (index : Option Nat) : Path s (s.badDescriptor p index) := by
  unfold State.badDescriptor
  simp only
  refine (path_offerError s p .descriptor index s.blockCounter).trans ?_
  generalize hs1 : ((s.offerError p .descriptor index s.blockCounter).modPort p fun x =>
    { x with badRun := min 9 (x.badRun + 1) }) = s1
  refine Path.trans (t := s1) ?_ ?_
  · subst hs1
    exact path_portQuiet _ p _ fun _ => ⟨rfl, rfl, rfl⟩
  split
  · refine path_ite _ (fun _ => ?_) fun _ => ?_
    · refine Path.trans (t := { s1 with freeCount := s1.freeCount + 1 }) (path_rest rfl rfl rfl rfl rfl rfl) ?_
      exact Path.after (path_raiseUpdate _ p _) (path_portQuiet _ p _ fun _ => ⟨rfl, rfl, rfl⟩)
    · exact Path.after (path_raiseLost _ p _) (path_portQuiet _ p _ fun _ => ⟨rfl, rfl, rfl⟩)
  · refine path_ite _ (fun _ => .refl _) fun _ => ?_
    exact Path.after (path_raiseLost _ p _) (path_portQuiet _ p _ fun _ => ⟨rfl, rfl, rfl⟩)

theorem path_completeDescriptor (s : State) (p : Fin 12) (bytes : List (Option Byte)) (last : Nat) (broken : Bool) :
    Path s (s.completeDescriptor p bytes last broken) := by
  unfold State.completeDescriptor
  simp only
  refine path_ite _ (fun _ => path_badDescriptor s p _) fun _ => ?_
  split
  · exact path_goodDescriptor s p _
  · exact path_badDescriptor s p _

theorem path_takeHeaderByte (s : State) (p : Fin 12) (cls : FrameClass) (byte : Byte) (e : Nat) :
    Path s (s.takeHeaderByte p cls byte e) := by
  unfold State.takeHeaderByte
  simp only
  split
  · exact .refl s
  · refine path_ite _ (fun _ => .refl s) fun _ => ?_
    refine path_ite _ (fun _ => ?_) fun _ => ?_
    · exact Path.after (path_completeDescriptor _ p _ _ _) (path_portQuiet s p _ fun _ => ⟨rfl, rfl, rfl⟩)
    · refine path_ite _ (fun _ => ?_) fun _ => ?_
      · exact Path.after (path_completeDescriptor _ p _ _ _) (path_portQuiet s p _ fun _ => ⟨rfl, rfl, rfl⟩)
      · exact path_portQuiet s p _ fun _ => ⟨rfl, rfl, rfl⟩

theorem path_takeServiceWord (s : State) (p : Fin 12) (cls : FrameClass) (code : ServiceCode) (word : Word)
    (index : Option Nat) : Path s (s.takeServiceWord p cls code word index).1 := by
  have idle : Path s (s.modPort p fun x => { x with assembly := none }) := path_portQuiet s p _ fun _ => ⟨rfl, rfl, rfl⟩
  have begin' : ∀ (t : State) (a : Assembly), Path t (t.modPort p fun x => { x with assembly := some a }) :=
    fun t a => path_portQuiet t p _ fun _ => ⟨rfl, rfl, rfl⟩
  unfold State.takeServiceWord
  cases cls <;> simp only
  case good | stop =>
    split
    · exact .refl s
    · exact begin' s _
    · exact Path.after (begin' _ _) (path_discardMessage s p _ _)
    · exact .refl s
    · split
      · exact idle.trans (path_discardMessage _ p _ _)
      · exact begin' s _
    · exact .refl s
    · split
      · exact idle.trans (path_discardMessage _ p _ _)
      · exact idle.trans (path_discardMessage _ p _ _)
      · exact idle.trans (path_count _ p _)
      · exact idle
  all_goals
    split
    · exact idle.trans (path_discardMessage _ p _ _)
    · exact .refl s

theorem path_timeoutMessage (s : State) (p : Fin 12) (a : Assembly) (counter : Long) :
    Path s (s.timeoutMessage p a counter) := by
  unfold State.timeoutMessage
  exact Path.after (path_discardMessage _ p _ _) (path_portQuiet s p _ fun _ => ⟨rfl, rfl, rfl⟩)

theorem path_tickAssembly (counter : Long) (p : Fin 12) (s : State) : Path s (s.tickAssembly counter p) := by
  unfold State.tickAssembly
  split
  · refine path_ite _ (fun _ => ?_) fun _ => .refl s
    refine path_ite _ (fun _ => path_timeoutMessage s p _ _) fun _ => ?_
    exact path_portQuiet s p _ fun _ => ⟨rfl, rfl, rfl⟩
  · exact .refl s

theorem path_tickHoldover (p : Fin 12) (s : State) : Path s (s.tickHoldover p) := by
  unfold State.tickHoldover
  refine path_ite _ (fun h => ?_) fun _ => .refl s
  refine path_ite _ (fun _ => path_loseHoldover s p (by rw [h]; decide)) fun _ => ?_
  exact path_portQuiet s p _ fun _ => ⟨rfl, rfl, rfl⟩

theorem tickWindow_safe (x : Port) (h : x.Safe) : x.tickWindow.Safe := by
  unfold Port.tickWindow
  split
  · next hw =>
    split
    · exact ⟨h.1, fun hn => ⟨(h.2 hn).1, rfl⟩⟩
    · exact ⟨h.1, fun hn => by have := (h.2 hn).2; simp [hw] at this⟩
  · exact h

theorem path_tickPort (counter : Long) (p : Fin 12) (s : State) : Path s (s.tickPort counter p) := by
  unfold State.tickPort
  refine Path.trans ?_ (path_unlessTaken _ _ _ (path_tickAssembly counter p _))
  refine Path.trans ?_ (path_unlessTaken _ _ _ (path_port _ p _ (tickWindow_safe _)))
  exact path_unlessTaken s _ _ (path_tickHoldover p s)

theorem path_disablePort (s : State) (p : Fin 12) : Path s (s.disablePort p) := by
  unfold State.disablePort
  refine path_ite _ (fun _ => .refl s) fun _ => ?_
  simp only
  refine Path.trans ?_ (path_announce _ p _)
  have h1 : Path s (if s.ports[p].assembly.isSome = true then s.discardMessage p none s.blockCounter else s) :=
    path_ite _ (fun _ => path_discardMessage s p _ _) fun _ => .refl s
  refine h1.trans ?_
  have h2 : ∀ t : State, Path t (t.modPort p fun x => { x.restart with state := .down }) :=
    fun t => path_port t p _ fun _ => ⟨Nat.zero_le _, fun _ => ⟨rfl, rfl⟩⟩
  refine (h2 _).trans ?_
  exact path_ite _ (fun _ => path_abandonMessage _ p) fun _ => .refl _

theorem path_huntPort (s : State) (p : Fin 12) : Path s (s.huntPort p) := by
  unfold State.huntPort
  simp only
  refine Path.trans ?_ (path_announce _ p _)
  have h2 : Path s (s.modPort p fun x => { x.restart with state := .hunt }) :=
    path_port s p _ fun _ => ⟨Nat.zero_le _, fun _ => ⟨rfl, rfl⟩⟩
  refine h2.trans ?_
  exact path_ite _ (fun _ => path_abandonMessage _ p) fun _ => .refl _

end Sys2Proof.Machine
end

