-- ==== Sys2Proof/Laws/PathsParts.lean ====
section
/-! SUPPORT. The decode unit, the audio path, the screen ports, the resets, the boundary and the master frame as runs of
single changes. -/

namespace Sys2Proof.Machine

theorem path_forScreens (f : Fin 8 → State → State) (h : ∀ n s, Path s (f n s)) (s : State) : Path s (forScreens f s) :=
  path_forEach f h _ s

theorem path_forPorts (f : Fin 12 → State → State) (h : ∀ p s, Path s (f p s)) (s : State) : Path s (forPorts f s) :=
  path_forEach f h _ s

theorem path_link (s : State) (n : Fin 8) (f : ScreenPort → ScreenPort) : Path s (s.modLink n f) :=
  (Change.link n fun x => f x.link).path

/-! ### Decode unit and audio path -/

theorem path_settleDecoder (n : Fin 8) (s : State) : Path s (s.settleDecoder n) := by
  unfold State.settleDecoder
  exact (Change.dec n _).path

theorem path_markStale (s : State) (tag : Nat) : Path s (s.markStale tag) := by
  unfold State.markStale
  exact path_forScreens _ (fun n t => (Change.dec n _).path) s

theorem path_playScreen (s : State) (n : Fin 8) (x : Inputs) : Path s (s.playScreen n x) := by
  unfold State.playScreen
  exact Path.after (path_forEach _ (fun c t => path_occur t n _) _ _) (Change.frame n x).path

theorem path_sendForward (index : Nat) (n : Fin 8) (s : State) : Path s (s.sendForward index n) := by
  unfold State.sendForward
  exact (Change.link n fun sc => { sc.link with sent := some (sc.forwardFrame index) }).path

theorem path_sendReturn (index : Nat) (p : Fin 12) (s : State) : Path s (s.sendReturn index p) := by
  unfold State.sendReturn
  refine path_ite _ (fun _ => path_portQuiet s p _ fun _ => ⟨rfl, rfl, rfl⟩) fun _ => ?_
  simp only
  refine Path.after (path_arb _ p _ fun a => Nat.le_refl _) ?_
  exact Path.after (path_portQuiet _ p _ fun _ => ⟨rfl, rfl, rfl⟩) (path_grant s p)

/-! ### Resets and queued steps -/

theorem path_takeDueReset (s : State) : Path s s.takeDueReset := by
  unfold State.takeDueReset
  split
  · exact path_ite _ (fun _ => (Change.restart _ _ _).path) fun _ => .refl s
  · exact .refl s

theorem path_endCrossfade (n : Fin 8) (s : State) : Path s (s.endCrossfade n) := by
  unfold State.endCrossfade
  exact path_ite _ (fun _ => (Change.eng n _ endCrossfade_safe (sameLoad_endCrossfade _)).path) fun _ => .refl s

theorem path_choose (n : Fin 8) (s : State) : Path s (s.choose n) := (Change.choice n).path

theorem path_settleDue (s : State) : Path s s.settleDue := by
  unfold State.settleDue
  refine Path.after (path_forScreens _ path_choose _) ?_
  refine Path.after (path_forScreens _ path_endCrossfade _) ?_
  exact Path.after (path_takeDueReset _) (path_forPorts _ path_messageSent s)

/-! ### The boundary -/

theorem boundary_marks (h : Handed) (m : Monitor) : (m.boundary h).marks = m.marks := by
  simp only [Monitor.boundary, Monitor.takeHanded]

theorem path_tickMonitor (n : Fin 8) (s : State) : Path s (s.tickMonitor n) := by
  unfold State.tickMonitor
  exact (Change.alarm n _ (by intro m h; rw [boundary_marks]; exact h)).path

theorem path_tickArbiters (s : State) : Path s s.tickArbiters := by
  unfold State.tickArbiters
  exact path_forPorts _ (fun p t => path_unlessTaken t _ _ (path_tickArbiter p t)) s

theorem path_tickLink (n : Fin 8) (s : State) : Path s (s.tickLink n) := by
  unfold State.tickLink
  exact Path.after (path_link _ n _) (path_unlessTaken s _ _ (path_link s n _))

theorem path_tickEngine (n : Fin 8) (s : State) : Path s (s.tickEngine n) := by
  unfold State.tickEngine
  exact (Change.eng n _ (fun e h => startSwitch_safe _ _ (fadeStep_safe e h))
    ((sameLoad_fadeStep _).trans (sameLoad_startSwitch _ _))).path

theorem path_openBlock (s : State) : Path s s.openBlock := path_rest rfl rfl rfl rfl rfl rfl

theorem path_tickLinks (s : State) : Path s s.tickLinks := by
  unfold State.tickLinks
  refine Path.after (path_forScreens _ path_tickLink _) ?_
  refine Path.after (path_tickArbiters _) ?_
  refine Path.after (path_forPorts _ (path_expireResponses _) _) ?_
  exact path_forPorts _ (path_tickPort _) s

theorem path_tickScreens (s : State) : Path s s.tickScreens := by
  unfold State.tickScreens
  refine Path.after (path_forScreens _ path_tickEngine _) ?_
  exact Path.after (path_forScreens _ path_settleDecoder _) (path_forScreens _ path_settleScreen s)

theorem path_tickTimers (s : State) : Path s s.tickTimers := by
  unfold State.tickTimers
  exact Path.after (Change.pulses _).path (path_forScreens _ (path_endQuiet _) s)

theorem path_emptyTaken (s : State) : Path s { s with taken := [] } := path_rest rfl rfl rfl rfl rfl rfl

theorem path_takeShare (s : State) (x : Share) : Path s (s.takeShare x) := path_rest rfl rfl rfl rfl rfl rfl

theorem path_boundary (s : State) : Path s s.boundary := by
  unfold State.boundary
  refine Path.after (path_emptyTaken _) ?_
  refine Path.after (path_forScreens _ path_tickMonitor _) ?_
  refine Path.after (path_tickTimers _) ?_
  refine Path.after (path_tickScreens _) ?_
  refine Path.after (path_tickLinks _) ?_
  exact Path.after (path_openBlock _) (path_settleDue s)

/-! ### The master frame -/

theorem path_frameIndex (s : State) (i : Nat) : Path s { s with frameIndex := i } := path_rest rfl rfl rfl rfl rfl rfl

theorem path_masterFrame (s : State) : Path s s.masterFrame := by
  unfold State.masterFrame
  simp only
  refine Path.after (path_frameIndex _ _) ?_
  refine Path.after (path_forPorts _ (path_sendReturn _) _) ?_
  refine Path.after (path_forScreens _ (path_sendForward _) _) ?_
  refine Path.after (path_forScreens _ (fun n t => path_playScreen t n _) _) ?_
  exact Path.after (path_forPorts _ path_readPort _) (path_settleDue s)

end Sys2Proof.Machine
end

