-- ==== Sys2Proof/Laws/PathsRequests.lean ====
section
/-! SUPPORT. What every request's owning block does is a run of single changes: one lemma for each answer. -/

namespace Sys2Proof.Machine

/-- Where an answer is DONE, its state is reached by single changes. -/
def Answer.From (s : State) (a : Answer) : Prop :=
  match a with
  | .refuse _ => True
  | .done t _ => Path s t

@[simp] theorem Answer.from_refuse (s : State) (code : RefusalCode) : (Answer.refuse code).From s = True := rfl
@[simp] theorem Answer.from_done (s t : State) (items : List Word) : (Answer.done t items).From s = Path s t := rfl

theorem from_ite (s : State) (c : Prop) [Decidable c] (a b : Answer) (ha : c → a.From s) (hb : ¬c → b.From s) :
    (if c then a else b).From s := by
  split
  · exact ha ‹_›
  · exact hb ‹_›

theorem from_refuse (s : State) (code : RefusalCode) : (Answer.refuse code).From s := trivial

theorem from_done (s t : State) (items : List Word) (h : Path s t) : (Answer.done t items).From s := h

theorem from_onScreen (s : State) (h : ReqHead) (f : Fin 8 → Answer) (k : ∀ n, (f n).From s) : (onScreen h f).From s := by
  unfold onScreen
  split
  · exact k _
  · trivial

theorem from_onPort (s : State) (port : Nat) (f : Fin 12 → Answer) (k : ∀ n, (f n).From s) : (onPort port f).From s := by
  unfold onPort
  split
  · exact k _
  · trivial

theorem from_onLine (s : State) (line : Nat) (f : Fin 16 → Answer) (k : ∀ n, (f n).From s) : (onLine line f).From s := by
  unfold onLine
  split
  · exact k _
  · trivial

theorem from_readAnswer (s : State) (items : List Word) (part : Nat) : (readAnswer s items part).From s := by
  unfold readAnswer
  exact from_ite s _ _ _ (fun _ => Path.refl s) fun _ => trivial

theorem from_readOrRefuse (s : State) (part : Nat) (x : Except RefusalCode (List Word)) :
    (readOrRefuse s part x).From s := by
  cases x
  · trivial
  · exact from_readAnswer s _ part

/-! ### The part and its locks -/

theorem path_setLock (s : State) (screen : BitVec 4) (holder : Byte) : Path s (s.setLock screen holder) := by
  unfold State.setLock
  split
  · exact path_rest rfl rfl rfl rfl rfl rfl
  · exact path_rest rfl rfl rfl rfl rfl rfl

theorem from_partStatus (s : State) (part : Nat) : (answerPartStatus part s).From s := from_readAnswer s _ part

theorem from_partReset (s : State) (h : ReqHead) : (answerPartReset h s).From s := by
  unfold answerPartReset
  exact path_rest rfl rfl rfl rfl rfl rfl

theorem from_lockTake (s : State) (h : ReqHead) : (answerLockTake h s).From s := by
  unfold answerLockTake
  exact from_ite s _ _ _ (fun _ => trivial) fun _ => from_ite s _ _ _ (fun _ => trivial) fun _ => path_setLock s _ _

theorem from_lockFree (s : State) (h : ReqHead) (force : Bool) : (answerLockFree h force s).From s := by
  unfold answerLockFree
  simp only
  refine from_ite s _ _ _ (fun _ => ?_) fun _ => path_setLock s _ _
  refine from_ite s _ _ _ (fun _ => ?_) fun _ => trivial
  exact from_ite s _ _ _ (fun _ => path_setLock s _ _) fun _ => trivial

/-! ### Program ports -/

theorem from_portRead (s : State) (port part : Nat) : (answerPortRead port part s).From s :=
  from_onPort s _ _ fun _ => from_readAnswer s _ part

theorem takeSettings_safe (x : PortSettings) (y : Port) (h : y.Safe) : (y.takeSettings x).Safe := by
  unfold Port.takeSettings
  refine ⟨h.1, fun hn => ⟨(h.2 hn).1, ?_⟩⟩
  simp only
  split
  · rfl
  · exact (h.2 hn).2

theorem path_takeEnable (s : State) (p : Fin 12) (enable : Bool) : Path s (s.takeEnable p enable) := by
  unfold State.takeEnable
  exact path_ite _ (fun _ => path_ite _ (fun _ => path_huntPort s p) fun _ => .refl s) fun _ => path_disablePort s p

theorem from_portSet (s : State) (port : Nat) (enable : Bool) (holdover dropCount dropWindow : Nat) (dropEnable : Bool) :
    (answerPortSet port enable holdover dropCount dropWindow dropEnable s).From s := by
  unfold answerPortSet
  refine from_onPort s _ _ fun p => from_ite s _ _ _ (fun _ => ?_) fun _ => trivial
  exact Path.after (path_takeEnable _ p _) (path_port s p _ (takeSettings_safe _ _))

theorem from_portClear (s : State) (port : Nat) : (answerPortClear port s).From s := by
  unfold answerPortClear
  refine from_onPort s _ _ fun p => ?_
  exact Path.after (path_arb _ p _ fun a => Nat.le_refl _) (path_portQuiet s p _ fun _ => ⟨rfl, rfl, rfl⟩)

theorem from_portRestart (s : State) (port : Nat) : (answerPortRestart port s).From s := by
  unfold answerPortRestart
  exact from_onPort s _ _ fun p => from_ite s _ _ _ (fun _ => trivial) fun _ => path_huntPort s p

/-! ### Screens -/

theorem from_screenRead (s : State) (h : ReqHead) (part : Nat) : (answerScreenRead h part s).From s :=
  from_onScreen s h _ fun _ => from_readAnswer s _ part

theorem from_screenSet (s : State) (h : ReqHead) (items : List ScreenItem) : (answerScreenSet h items s).From s := by
  unfold answerScreenSet
  exact from_onScreen s h _ fun n => from_ite s _ _ _ (fun _ => (Change.ctx n _).path) fun _ => trivial

theorem from_screenState (s : State) (h : ReqHead) (target : ScreenState) : (answerScreenState h target s).From s :=
  from_onScreen s h _ fun n => path_changeState s n target

theorem from_screenSource (s : State) (h : ReqHead) (role : SourceRole) : (answerScreenSource h role s).From s := by
  unfold answerScreenSource
  exact from_onScreen s h _ fun n => from_ite s _ _ _ (fun _ => trivial) fun _ => (Change.ctx n _).path

theorem noticeReset_safe (u : NoticeUnit) : u.reset.Safe := by simp [NoticeUnit.reset, NoticeUnit.Safe, StackSafe]

theorem monitorReset_marks (m : Monitor) : m.reset.marks = [] := by simp only [Monitor.reset]

theorem path_resetScreen (s : State) (n : Fin 8) : Path s (s.resetScreen n) := by
  unfold State.resetScreen
  simp only
  refine Path.after (Change.alarm n _ (by intro m h; rw [monitorReset_marks]; simp)).path ?_
  refine Path.after (Change.notice n _ fun u _ => noticeReset_safe u).path ?_
  refine Path.after (Change.quiet n none).path ?_
  refine Path.after (Change.cues n _ (by intro c; exact ⟨rfl, rfl, rfl⟩)).path ?_
  refine Path.after (path_link _ n _) ?_
  exact Path.after (Change.ctx n _).path (path_enterDark s n)

theorem from_screenReset (s : State) (h : ReqHead) : (answerScreenReset h s).From s :=
  from_onScreen s h _ fun n => path_resetScreen s n

/-! ### Formats -/

theorem path_setLoaded (s : State) (tag : Nat) (x : Option FormatRecord) : Path s (s.setLoaded tag x) := by
  unfold State.setLoaded
  split
  · exact path_rest rfl rfl rfl rfl rfl rfl
  · exact .refl s

theorem path_staging (s : State) (g : Option Staging) : Path s { s with staging := g } :=
  path_rest rfl rfl rfl rfl rfl rfl

theorem from_formatLoadBegin (s : State) (h : ReqHead) (x : FormatHeader) : (answerFormatLoadBegin h x s).From s := by
  unfold answerFormatLoadBegin
  split
  · trivial
  · exact from_ite s _ _ _ (fun _ => trivial) fun _ => trivial
  · exact from_ite s _ _ _ (fun _ => path_staging s _) fun _ => trivial

theorem from_formatLoadRows (s : State) (h : ReqHead) (tag row : Nat) (matrix : Matrix) (coefs : List Int) :
    (answerFormatLoadRows h tag row matrix coefs s).From s := by
  unfold answerFormatLoadRows
  refine from_ite s _ _ _ (fun _ => ?_) fun _ => trivial
  split
  · trivial
  · exact from_ite s _ _ _ (fun _ => path_staging s _) fun _ => trivial

theorem from_formatLoadCommit (s : State) (h : ReqHead) (tag : Nat) : (answerFormatLoadCommit h tag s).From s := by
  unfold answerFormatLoadCommit
  split
  · trivial
  · refine from_done s _ _ (Path.after (path_markStale _ tag) ?_)
    exact Path.after (path_setLoaded _ tag _) (path_staging s none)

theorem from_formatLoadClear (s : State) (tag : Nat) : (answerFormatLoadClear tag s).From s := by
  unfold answerFormatLoadClear
  split
  · trivial
  · trivial
  · exact from_ite s _ _ _ (fun _ => Path.after (path_markStale _ tag) (path_setLoaded s tag none)) fun _ => Path.refl s

theorem from_formatRead (s : State) (h : ReqHead) (query : FormatQuery) (part : Nat) :
    (answerFormatRead h query part s).From s := by
  unfold answerFormatRead
  split
  · exact from_readOrRefuse s part _
  · exact from_readAnswer s _ part
  · trivial

/-! ### Filter engine -/

theorem loadHead_safe (k : Bank) (c : Fin 16) (count delay trim : Nat) (e : Engine) (h : e.Safe) :
    (e.loadHead k c count delay trim).Safe := by cases k <;> exact h

theorem withinBudget_iff (s : State) : s.withinBudget = true ↔ s.BudgetSafe := by
  unfold State.withinBudget State.BudgetSafe sectionBudget delayPool
  simp only [Bool.and_eq_true, decide_eq_true_eq]

theorem path_load (s : State) (n : Fin 8) (f : Engine → Engine) (h : ∀ e, e.Safe → (f e).Safe)
    (hb : (s.modEng n f).withinBudget = true) : Path s (s.modEng n f) := (Change.load n f h hb).path

theorem path_loadHead (s : State) (n : Fin 8) (k : Bank) (c : Fin 16) (count delay trim : Nat)
    (hb : (s.modEng n (Engine.loadHead k c count delay trim)).withinBudget = true) :
    Path s (s.modEng n (Engine.loadHead k c count delay trim)) :=
  path_load s n (Engine.loadHead k c count delay trim) (fun e h => loadHead_safe k c count delay trim e h) hb

theorem from_eqLoadHead (s : State) (h : ReqHead) (k : Bank) (channel count delay trim : Nat) :
    (answerEqLoadHead h k channel count delay trim s).From s := by
  unfold answerEqLoadHead
  refine from_onScreen s h _ fun n => ?_
  split
  · trivial
  · next c _ =>
    have hl := path_loadHead s n k c count delay trim
    generalize s.modEng n (Engine.loadHead k c count delay trim) = t at hl ⊢
    exact from_ite s _ _ _ (fun _ => from_ite s _ _ _ (fun _ => trivial) fun _ =>
      from_ite s _ _ _ (fun hb => hl hb) fun _ => trivial) fun _ => trivial

theorem writeSections_length (first : Nat) (new : List Coefs) (x : Chain) (h : first + new.length ≤ x.sections.length) :
    (x.writeSections first new).sections.length = x.sections.length := by
  simp [Chain.writeSections]
  omega

theorem sameLoad_writeSections (k : Bank) (c : Fin 16) (first : Nat) (new : List Coefs) (e : Engine)
    (h : first + new.length ≤ (e.bank k)[c].sections.length) :
    SameLoad e (e.modChain k c (Chain.writeSections first new)) := by
  have hw := writeSections_length first new _ h
  intro j i
  by_cases hi : c.val = i.val <;> cases k <;> cases j <;>
    simp_all [Engine.modChain, Engine.setBank, Engine.bank, Chain.writeSections]

theorem modChain_safe (k : Bank) (c : Fin 16) (f : Chain → Chain) (e : Engine) (h : e.Safe) : (e.modChain k c f).Safe := by
  cases k <;> exact h

theorem from_eqLoadSections (s : State) (h : ReqHead) (k : Bank) (channel first : Nat) (new : List Coefs) :
    (answerEqLoadSections h k channel first new s).From s := by
  unfold answerEqLoadSections
  refine from_onScreen s h _ fun n => ?_
  split
  · trivial
  · refine from_ite s _ _ _ (fun hc => from_ite s _ _ _ (fun _ => trivial) fun _ => ?_) fun _ => trivial
    exact (Change.eng n _ (modChain_safe k _ _) (sameLoad_writeSections k _ first new _ hc.2.2)).path

theorem from_eqRead (s : State) (h : ReqHead) (query : EqQuery) (part : Nat) : (answerEqRead h query part s).From s := by
  unfold answerEqRead
  split
  · exact from_readAnswer s _ part
  · exact from_readOrRefuse s part _
  · exact from_readAnswer s _ part
  all_goals trivial

theorem from_eqSelect (s : State) (h : ReqHead) (k : Bank) : (answerEqSelect h k s).From s :=
  from_onScreen s h _ fun n => path_select s n k

theorem from_fade (s : State) (h : ReqHead) (target duration : Nat) : (answerFade h target duration s).From s :=
  from_onScreen s h _ fun n => path_takeFade s n target duration

theorem from_mute (s : State) (h : ReqHead) (on : Bool) : (answerMute h on s).From s :=
  from_onScreen s h _ fun n => path_takeMute s n on

/-! ### Meters and alarms -/

theorem from_meterRead (s : State) (h : ReqHead) (part : Nat) : (answerMeterRead h part s).From s :=
  from_onScreen s h _ fun _ => from_readAnswer s _ part

theorem setClass_marks (cls : AlarmClass) (x : ClassRecord) (m : Monitor) : (m.setClass cls x).marks = m.marks := by
  simp only [Monitor.setClass, clearWhere_marks]

theorem from_alarmSet (s : State) (h : ReqHead) (cls : AlarmClass) (x : AlarmOperand) :
    (answerAlarmSet h cls x s).From s := by
  unfold answerAlarmSet
  refine from_onScreen s h _ fun n => from_ite s _ _ _ (fun _ => ?_) fun _ => trivial
  exact (Change.alarm n _ (by intro m hm; rw [setClass_marks]; exact hm)).path

theorem acknowledge_marksOnly (ids : List (Fin 54)) : MarksOnly (Monitor.acknowledge ids) := by
  intro m
  simp [Monitor.acknowledge]

theorem test_marksOnly (ids : List (Fin 54)) : MarksOnly (Monitor.test ids) := by
  intro m
  simp [Monitor.test]

theorem from_alarmAck (s : State) (h : ReqHead) (ids : List Nat) : (answerAlarmAck h ids s).From s := by
  unfold answerAlarmAck
  refine from_onScreen s h _ fun n => ?_
  split
  · exact (Change.mon n _ (acknowledge_marksOnly _)).path
  · trivial

theorem from_alarmTest (s : State) (h : ReqHead) (ids : List Nat) : (answerAlarmTest h ids s).From s := by
  unfold answerAlarmTest
  refine from_onScreen s h _ fun n => ?_
  split
  · exact (Change.mon n _ (test_marksOnly _)).path
  · trivial

theorem from_alarmRead (s : State) (h : ReqHead) (id : Option Nat) (part : Nat) : (answerAlarmRead h id part s).From s := by
  unfold answerAlarmRead
  refine from_onScreen s h _ fun n => ?_
  split
  · exact from_readAnswer s _ part
  · split
    · exact from_readAnswer s _ part
    · trivial

/-! ### Cues and contact lines -/

theorem from_cueLoad (s : State) (h : ReqHead) (k : CueOperand) : (answerCueLoad h k s).From s := by
  unfold answerCueLoad
  refine from_onScreen s h _ fun n => from_ite s _ _ _ (fun _ => ?_) fun _ => trivial
  split
  · next t ht => exact (Change.cueIn n k ht).path
  · trivial

theorem path_deleteCues (s : State) (n : Fin 8) (which : CueSelection) : Path s (s.deleteCues n which) :=
  path_forEach _ (fun id _ => (Change.cueOut n id).path) _ s

theorem from_cueDelete (s : State) (h : ReqHead) (which : CueSelection) : (answerCueDelete h which s).From s := by
  unfold answerCueDelete
  exact from_onScreen s h _ fun n => from_ite s _ _ _ (fun _ => path_deleteCues s n which) fun _ => trivial

theorem from_cueRearm (s : State) (h : ReqHead) (which : CueSelection) : (answerCueRearm h which s).From s := by
  unfold answerCueRearm
  refine from_onScreen s h _ fun n => from_ite s _ _ _ (fun _ => ?_) fun _ => trivial
  refine from_done s _ _ (Change.cues n _ fun c => ?_).path
  split
  · exact ⟨rfl, rfl, rfl⟩
  · exact ⟨rfl, rfl, rfl⟩

theorem from_cueFire (s : State) (h : ReqHead) (id : Nat) : (answerCueFire h id s).From s := by
  unfold answerCueFire
  refine from_onScreen s h _ fun n => from_ite s _ _ _ (fun _ => trivial) fun _ => ?_
  split
  · exact path_fireCue s n _
  · trivial

theorem from_cueRead (s : State) (h : ReqHead) (query : CueQuery) (part : Nat) : (answerCueRead h query part s).From s := by
  unfold answerCueRead
  split
  · exact from_readAnswer s _ part
  · refine from_ite s _ _ _ (fun _ => trivial) fun _ => ?_
    split
    · exact from_readAnswer s _ part
    · trivial
  · exact from_readAnswer s _ part
  · exact from_readAnswer s _ part
  · trivial

theorem from_contactSet (s : State) (line : Nat) (owner : Option Nat) (mode : LineMode) (threshold : Nat) :
    (answerContactSet line owner mode threshold s).From s := by
  unfold answerContactSet
  exact from_onLine s _ _ fun l => from_ite s _ _ _ (fun _ => (Change.lineSet l _ mode threshold).path) fun _ => trivial

theorem from_contactDrive (s : State) (h : ReqHead) (line : Nat) (d : Drive) : (answerContactDrive h line d s).From s := by
  unfold answerContactDrive
  refine from_onScreen s h _ fun n => from_onLine s _ _ fun l => ?_
  refine from_ite s _ _ _ (fun _ => from_ite s _ _ _ (fun hd => ?_) fun _ => trivial) fun _ => trivial
  exact (Change.drive l _ d (drivenBy_mode hd)).path

/-! ### Notices -/

theorem from_noticeDone (s : State) (h : ReqHead) (tag : Option Word) : (answerNoticeDone h tag s).From s := by
  unfold answerNoticeDone
  refine from_onScreen s h _ fun n => ?_
  split
  · trivial
  · next e rest hs =>
    exact from_ite s _ _ _ (fun _ => (Change.done n e rest hs).path) fun _ => trivial

theorem from_noticeRead (s : State) (h : ReqHead) (query : NoticeQuery) (part : Nat) :
    (answerNoticeRead h query part s).From s := by
  unfold answerNoticeRead
  split
  · exact from_readAnswer s _ part
  · exact from_onPort s _ _ fun _ => from_readAnswer s _ part
  · trivial

theorem loseWaiting_safe (u : NoticeUnit) (h : u.Safe) : u.loseWaiting.Safe := by
  unfold NoticeUnit.loseWaiting
  split
  · split
    · exact h
    · exact h
  · exact h

theorem path_setRoute (s : State) (n : Fin 8) (new : Option Route) : Path s (s.setRoute n new) := by
  unfold State.setRoute
  simp only
  have h : Path s (s.modCtx n fun c => { c with route := new }) := (Change.ctx n _).path
  refine path_ite _ (fun _ => h) fun _ => ?_
  refine h.trans ?_
  refine Path.trans (Change.notice n NoticeUnit.loseWaiting loseWaiting_safe).path ?_
  unfold State.leaveOldPort
  split
  · exact path_arb _ _ _ fun a => Nat.le_refl _
  · exact .refl _

theorem from_noticeRouteScreen (s : State) (h : ReqHead) (route : Option RouteOperand) :
    (answerNoticeRouteScreen h route s).From s := by
  unfold answerNoticeRouteScreen
  refine from_onScreen s h _ fun n => ?_
  split
  · exact path_setRoute s n none
  · split
    · exact path_setRoute s n _
    · trivial

theorem from_noticeRoutePort (s : State) (port count weight interval : Nat) :
    (answerNoticeRoutePort port count weight interval s).From s := by
  unfold answerNoticeRoutePort
  refine from_onPort s _ _ fun p => from_ite s _ _ _ (fun _ => ?_) fun _ => trivial
  exact path_arb s p _ fun a => Nat.le_refl _

end Sys2Proof.Machine
end

