-- ==== Sys2Proof/Laws/Runs.lean ====
section
/-! SUPPORT. Every command is a run of single changes with at most one response placed at its end (`exec_run`). -/

namespace Sys2Proof.Machine

/-! ### A run never lengthens a response queue -/

theorem change_queue {s t : State} (h : Change s t) (q : Fin 12) :
    t.arbiters[q].queue.length ≤ s.arbiters[q].queue.length := by
  cases h with
  | arb p f h =>
    simp only [Fin.getElem_fin, State.modArb_get]
    split
    · next e => subst e; exact h
    · exact Nat.le_refl _
  | rest h => rw [h.2.1]
  | restart straps frame free => simp [State.powerOn, arbiterPowerOn]
  | cueIn n k h =>
    unfold State.loadCue at h
    simp only at h
    split at h
    · cases h; exact Nat.le_refl _
    · split at h
      · cases h; exact Nat.le_refl _
      · cases h
  | cueOut n id =>
    unfold State.deleteCue
    split <;> exact Nat.le_refl _
  | choice n =>
    unfold State.choose
    simp only
    split <;> exact Nat.le_refl _
  | _ => exact Nat.le_refl _

theorem path_queue {s t : State} (h : Path s t) (q : Fin 12) :
    t.arbiters[q].queue.length ≤ s.arbiters[q].queue.length := by
  induction h with
  | refl => exact Nat.le_refl _
  | tail _ k ih => exact Nat.le_trans (change_queue k q) ih

/-! ### Runs -/

theorem Path.run {s t : State} (h : Path s t) : Run s t := ⟨t, h, .inl rfl⟩

theorem Run.after {s u t : State} (k : Run u t) (h : Path s u) : Run s t := by
  obtain ⟨v, hv, e⟩ := k
  exact ⟨v, h.trans hv, e⟩

theorem run_place (s : State) (h : ReqHead) (k : BitVec 11) (payload : List Word) (r : Bool)
    (q : s.arbiters[h.port].queue.length < 4) : Run s (s.place h k payload r) := ⟨s, .refl s, .inr ⟨h, k, payload, r, q, rfl⟩⟩

theorem canTake_queue {s : State} {p : Fin 12} (h : s.canTake p = true) : s.arbiters[p].queue.length < 4 := by
  unfold State.canTake at h
  simp only [Bool.and_eq_true, decide_eq_true_eq] at h
  exact h.2

theorem path_discardRequest (s : State) (p : Fin 12) : Path s (s.discardRequest p) := by
  unfold State.discardRequest
  exact path_arb s p _ fun a => Nat.le_refl _

/-! ### Requests -/

theorem run_request (s : State) (h : ReqHead) (k : ReqKind) (body : State → Answer) (hb : (body s).From s) :
    Run s (s.request h k body) := by
  unfold State.request
  split
  · next hc =>
    have hq := canTake_queue hc
    split
    · exact run_place s h _ _ _ hq
    · split
      · exact run_place s h _ _ _ hq
      · next t items he =>
        rw [he] at hb
        exact (run_place t h _ _ _ (Nat.lt_of_le_of_lt (path_queue hb h.port) hq)).after hb
  · exact (path_discardRequest s h.port).run

theorem run_requestUnknown (s : State) (h : ReqHead) (kind : BitVec 11) : Run s (s.requestUnknown h kind) := by
  unfold State.requestUnknown
  split
  · next hc => exact run_place s h _ _ _ (canTake_queue hc)
  · exact (path_discardRequest s h.port).run

/-! ### Messages and frames -/

theorem from_answerRead {α : Type} (s : State) (reader : Read α) (payload : List Word) (f : α → State → Answer)
    (h : ∀ a, (f a s).From s) : (answerRead reader payload f s).From s := by
  unfold answerRead
  split
  · exact h _
  · trivial

theorem readPortSet_from (s : State) (payload : List Word) : (answerRead readPortSet payload (fun f => f) s).From s := by
  unfold answerRead
  split
  · next f hf =>
    unfold readAll at hf
    split at hf
    · next a hr =>
      cases hf
      simp only [readPortSet, bind, StateT.bind, pure, StateT.pure, Option.bind_eq_some_iff] at hr
      obtain ⟨_, -, _, -, _, -, _, -, _, -, _, -, he⟩ := hr
      simp only [Option.some.injEq, Prod.mk.injEq] at he
      obtain ⟨he, -⟩ := he
      rw [← he]
      exact from_portSet s _ _ _ _ _ _
    · cases hf
  · trivial

theorem from_answerWords (s : State) (h : ReqHead) (k : ReqKind) (payload : List Word) :
    (answerWords h k payload s).From s := by
  cases k
  case partStatus => exact from_answerRead s _ _ _ fun _ => from_partStatus s _
  case partReset => exact from_answerRead s _ _ _ fun _ => from_partReset s h
  case lockTake => exact from_answerRead s _ _ _ fun _ => from_lockTake s h
  case lockFree => exact from_answerRead s _ _ _ fun _ => from_lockFree s h _
  case portRead => exact from_answerRead s _ _ _ fun _ => from_portRead s _ _
  case portSet => exact readPortSet_from s payload
  case portClear => exact from_answerRead s _ _ _ fun _ => from_portClear s _
  case portRestart => exact from_answerRead s _ _ _ fun _ => from_portRestart s _
  case screenRead => exact from_answerRead s _ _ _ fun _ => from_screenRead s h _
  case screenSet => exact from_answerRead s _ _ _ fun _ => from_screenSet s h _
  case screenState => exact from_answerRead s _ _ _ fun _ => from_screenState s h _
  case screenSource => exact from_answerRead s _ _ _ fun _ => from_screenSource s h _
  case screenReset => exact from_answerRead s _ _ _ fun _ => from_screenReset s h
  case formatLoadBegin => exact from_answerRead s _ _ _ fun _ => from_formatLoadBegin s h _
  case formatLoadRows => exact from_answerRead s _ _ _ fun _ => from_formatLoadRows s h _ _ _ _
  case formatLoadCommit => exact from_answerRead s _ _ _ fun _ => from_formatLoadCommit s h _
  case formatLoadClear => exact from_answerRead s _ _ _ fun _ => from_formatLoadClear s _
  case formatRead => exact from_answerRead s _ _ _ fun _ => from_formatRead s h _ _
  case eqLoadHead => exact from_answerRead s _ _ _ fun _ => from_eqLoadHead s h _ _ _ _ _
  case eqLoadSections => exact from_answerRead s _ _ _ fun _ => from_eqLoadSections s h _ _ _ _
  case eqRead => exact from_answerRead s _ _ _ fun _ => from_eqRead s h _ _
  case eqSelect => exact from_answerRead s _ _ _ fun _ => from_eqSelect s h _
  case fade => exact from_answerRead s _ _ _ fun _ => from_fade s h _ _
  case mute => exact from_answerRead s _ _ _ fun _ => from_mute s h _
  case meterRead => exact from_answerRead s _ _ _ fun _ => from_meterRead s h _
  case alarmSet => exact from_answerRead s _ _ _ fun _ => from_alarmSet s h _ _
  case alarmRead => exact from_answerRead s _ _ _ fun _ => from_alarmRead s h _ _
  case alarmAck => exact from_answerRead s _ _ _ fun _ => from_alarmAck s h _
  case alarmTest => exact from_answerRead s _ _ _ fun _ => from_alarmTest s h _
  case cueLoad => exact from_answerRead s _ _ _ fun _ => from_cueLoad s h _
  case cueDelete => exact from_answerRead s _ _ _ fun _ => from_cueDelete s h _
  case cueRead => exact from_answerRead s _ _ _ fun _ => from_cueRead s h _ _
  case cueFire => exact from_answerRead s _ _ _ fun _ => from_cueFire s h _
  case cueRearm => exact from_answerRead s _ _ _ fun _ => from_cueRearm s h _
  case contactSet => exact from_answerRead s _ _ _ fun _ => from_contactSet s _ _ _ _
  case contactDrive => exact from_answerRead s _ _ _ fun _ => from_contactDrive s h _ _
  case noticeDone => exact from_answerRead s _ _ _ fun _ => from_noticeDone s h _
  case noticeRead => exact from_answerRead s _ _ _ fun _ => from_noticeRead s h _ _
  case noticeRouteScreen => exact from_answerRead s _ _ _ fun _ => from_noticeRouteScreen s h _
  case noticeRoutePort => exact from_answerRead s _ _ _ fun _ => from_noticeRoutePort s _ _ _ _

theorem run_takeMessage (s : State) (p : Fin 12) (words : List Word) : Run s (s.takeMessage p words) := by
  unfold State.takeMessage
  split
  · simp only
    split
    · exact run_requestUnknown s _ _
    · split
      · exact run_request s _ _ _ (from_answerWords s _ _ _)
      · exact run_requestUnknown s _ _
  · exact (Path.refl s).run

theorem path_drawIndex (s : State) (expected : Option Nat) (cls : FrameClass) : Path s (s.drawIndex expected cls) := by
  unfold State.drawIndex
  exact path_ite _ (fun _ => path_rest rfl rfl rfl rfl rfl rfl) fun _ => .refl s

theorem path_takeDescriptor (s : State) (p : Fin 12) (before : Port) (cls : FrameClass) (byte : Byte) :
    Path s (s.takeDescriptor p before cls byte) := by
  unfold State.takeDescriptor
  split
  · exact path_ite _ (fun _ => path_takeHeaderByte s p _ _ _) fun _ => .refl s
  · exact .refl s

theorem run_frameArrives (s : State) (p : Fin 12) (f : LinkFrame 16) : Run s (s.frameArrives p f) := by
  unfold State.frameArrives
  simp only
  split
  · exact (Path.refl s).run
  · generalize hc : classify s.ports[p].expected f = cls
    generalize hi : s.arrivalIndex s.ports[p].expected cls (headerIndex f.header) = index
    have h1 := path_takeLinkFrame (s.drawIndex s.ports[p].expected cls) p cls f.slots (headerIndex f.header) index
    have h2 := Path.after h1 (path_drawIndex s s.ports[p].expected cls)
    generalize (s.drawIndex s.ports[p].expected cls).takeLinkFrame p cls f.slots (headerIndex f.header) index = linked at h2 ⊢
    have h3 := Path.after (path_takeDescriptor linked p s.ports[p] cls (headerByte f.header)) h2
    generalize linked.takeDescriptor p s.ports[p] cls (headerByte f.header) = described at h3 ⊢
    have h4 := Path.after (path_takeServiceWord described p cls (headerCode f.header) f.service index) h3
    split
    · exact (run_takeMessage _ p _).after h4
    · exact h4.run

/-! ### Every command -/

theorem path_of_live {s t : State} {f : State → State} (h : live s f = .next t) (k : Path s (f s)) : Path s t := by
  unfold live at h
  cases h
  split
  · exact k
  · exact .refl s

theorem run_of_live {s t : State} {f : State → State} (h : live s f = .next t) (k : Run s (f s)) : Run s t := by
  unfold live at h
  cases h
  split
  · exact k
  · exact (Path.refl s).run

theorem run_of_request {s t : State} {h : ReqHead} {k : ReqKind} {body : State → Answer}
    (e : live s (fun s => s.request h k body) = .next t) (hb : (body s).From s) : Run s t :=
  run_of_live e (run_request s h k body hb)

theorem path_endAlarm (s : State) (n : Fin 8) (id : Fin 54) (ends : Bool) : Path s (s.endAlarm n id ends) := by
  unfold State.endAlarm
  refine path_ite _ (fun _ => ?_) fun _ => .refl s
  exact (Change.alarm n _ (by intro m h; simpa only [Monitor.endEarly] using h)).path

theorem closeWindow_safe (x : Port) (h : x.Safe) : x.closeWindow.Safe := ⟨h.1, fun hn => ⟨(h.2 hn).1, rfl⟩⟩

theorem path_windowClose (s : State) (p : Fin 12) : Path s (s.modPort p Port.closeWindow) :=
  path_port s p _ (closeWindow_safe _)

/-- Whatever a command does, it does by single changes, with at most one response placed at the end. -/
theorem exec_run {c : Instr} {s t : State} (h : exec c s = .next t) : Run s t := by
  cases c <;> simp only [exec] at h
  case powerOn straps =>
    cases h
    exact (Change.restart _ _ _).path.run
  case powerLoss =>
    cases h
    exact Change.powerLoss.path.run
  case partResetTakesEffect => exact (path_of_live h (path_takeDueReset s)).run
  case programFrameArrival p f => exact run_of_live h (run_frameArrives s p f)
  case masterFrame => exact (path_of_live h (path_masterFrame s)).run
  case arbiterGrant p => exact (path_of_live h (path_grant s p)).run
  case messageSent p => exact (path_of_live h (path_messageSent p s)).run
  case noticeChoice n => exact (path_of_live h (path_choose n s)).run
  case rackFrameArrival n f => exact (path_of_live h (path_link s n _)).run
  case masterBlockBoundary => exact (path_of_live h (path_boundary s)).run
  case crossfadeEnd n => exact (path_of_live h (path_endCrossfade n s)).run
  case qualifyWindowExpiry n id => exact (path_of_live h (path_endAlarm s n id _)).run
  case releaseComplete n id => exact (path_of_live h (path_endAlarm s n id _)).run
  case holdoverExpiry p =>
    refine (path_of_live h (path_unlessTaken s _ _ (path_ite _ (fun hc => ?_) fun _ => .refl s))).run
    exact Path.after (path_takeShare _ _) (path_loseHoldover s p (by rw [hc.1]; decide))
  case fastDropWindowClose p =>
    refine (path_of_live h (path_unlessTaken s _ _ (path_ite _ (fun _ => ?_) fun _ => .refl s))).run
    exact Path.after (path_takeShare _ _) (path_windowClose s p)
  case exchangeTimeout n =>
    refine (path_of_live h (path_unlessTaken s _ _ (path_ite _ (fun _ => ?_) fun _ => .refl s))).run
    exact Path.after (path_takeShare _ _) (path_link s n _)
  case serviceTimeout p =>
    refine (path_of_live h (path_unlessTaken s _ _ ?_)).run
    split
    · exact Path.after (path_takeShare _ _) (path_timeoutMessage s p _ _)
    · exact .refl s
  case responseExpiry p => exact (path_of_live h (path_expireOne _ p s)).run
  case arbiterReload p =>
    refine (path_of_live h (path_unlessTaken s _ _ (path_ite _ (fun _ => ?_) fun _ => .refl s))).run
    exact Path.after (path_takeShare _ _) (path_reload s p)
  case quietIntervalEnd n => exact (path_of_live h (path_endQuiet _ n s)).run
  case contactPulseEnd l => exact (path_of_live h (Change.pulse l _).path).run
  case partStatus x part => exact run_of_request h (from_partStatus s part)
  case partReset x => exact run_of_request h (from_partReset s x)
  case lockTake x => exact run_of_request h (from_lockTake s x)
  case lockFree x force => exact run_of_request h (from_lockFree s x force)
  case portRead x port part => exact run_of_request h (from_portRead s port part)
  case portSet x port enable holdover dropCount dropWindow dropEnable =>
    exact run_of_request h (from_portSet s port enable holdover dropCount dropWindow dropEnable)
  case portClear x port => exact run_of_request h (from_portClear s port)
  case portRestart x port => exact run_of_request h (from_portRestart s port)
  case screenRead x part => exact run_of_request h (from_screenRead s x part)
  case screenSet x items => exact run_of_request h (from_screenSet s x items)
  case screenState x st => exact run_of_request h (from_screenState s x st)
  case screenSource x role => exact run_of_request h (from_screenSource s x role)
  case screenReset x => exact run_of_request h (from_screenReset s x)
  case formatLoadBegin x header => exact run_of_request h (from_formatLoadBegin s x header)
  case formatLoadRows x tag row matrix coefs => exact run_of_request h (from_formatLoadRows s x tag row matrix coefs)
  case formatLoadCommit x tag => exact run_of_request h (from_formatLoadCommit s x tag)
  case formatLoadClear x tag => exact run_of_request h (from_formatLoadClear s tag)
  case formatRead x query part => exact run_of_request h (from_formatRead s x query part)
  case eqLoadHead x k channel count delay trim =>
    exact run_of_request h (from_eqLoadHead s x k channel count delay trim)
  case eqLoadSections x k channel first new => exact run_of_request h (from_eqLoadSections s x k channel first new)
  case eqRead x query part => exact run_of_request h (from_eqRead s x query part)
  case eqSelect x k => exact run_of_request h (from_eqSelect s x k)
  case fade x target duration => exact run_of_request h (from_fade s x target duration)
  case mute x on => exact run_of_request h (from_mute s x on)
  case meterRead x part => exact run_of_request h (from_meterRead s x part)
  case alarmSet x cls record => exact run_of_request h (from_alarmSet s x cls record)
  case alarmRead x id part => exact run_of_request h (from_alarmRead s x id part)
  case alarmAck x ids => exact run_of_request h (from_alarmAck s x ids)
  case alarmTest x ids => exact run_of_request h (from_alarmTest s x ids)
  case cueLoad x k => exact run_of_request h (from_cueLoad s x k)
  case cueDelete x which => exact run_of_request h (from_cueDelete s x which)
  case cueRead x query part => exact run_of_request h (from_cueRead s x query part)
  case cueFire x id => exact run_of_request h (from_cueFire s x id)
  case cueRearm x which => exact run_of_request h (from_cueRearm s x which)
  case contactSet x line owner mode threshold => exact run_of_request h (from_contactSet s line owner mode threshold)
  case contactDrive x line d => exact run_of_request h (from_contactDrive s x line d)
  case noticeDone x tag => exact run_of_request h (from_noticeDone s x tag)
  case noticeRead x query part => exact run_of_request h (from_noticeRead s x query part)
  case noticeRouteScreen x route => exact run_of_request h (from_noticeRouteScreen s x route)
  case noticeRoutePort x port count weight interval =>
    exact run_of_request h (from_noticeRoutePort s port count weight interval)
  case unknownRequest x kind response => exact run_of_live h (run_requestUnknown s x kind)

end Sys2Proof.Machine
end

