-- ==== Sys2Proof/Laws/Operations.lean ====
section
/-! SUPPORT. One lemma for each shared operation that the statements rest on: what a request that is taken does, what a request
that is turned away does, the list order that a placing keeps, and what the alarm summary is. -/

namespace Sys2Proof.Machine

/-! ### Taking a request -/

/-- With power, a command does what its function of the state says. -/
theorem live_on {s : State} (h : s.powered = true) (f : State → State) : live s f = .next (f s) := by simp [live, h]

/-- Without power, a command leaves the state as it is (assumption log 3). -/
theorem live_off {s : State} (h : s.powered = false) (f : State → State) : live s f = .next s := by simp [live, h]

/-- A message can be taken exactly when no reset is pending and the response queue of its port has room (R176). -/
theorem canTake_iff (s : State) (p : Fin 12) :
    s.canTake p = true ↔ s.resetPending = none ∧ s.arbiters[p].queue.length ≤ 3 := by
  simp [State.canTake, Nat.lt_succ_iff]

/-- A taken request that passes every check is answered as its owning block says (R179, R180). -/
theorem request_taken {s : State} {h : ReqHead} {k : ReqKind} (ht : s.canTake h.port = true) (hb : s.refusedBefore h k = none)
    (body : State → Answer) :
    s.request h k body = match body s with
      | .refuse code => s.refusedWith h k code
      | .done t items => t.answered h k items := by
  simp only [State.request, ht, hb, if_true]
  cases body s <;> rfl

/-- A taken request that a check before its owning block refuses is answered with that refusal (R177, R178). -/
theorem request_refused {s : State} {h : ReqHead} {k : ReqKind} {code : RefusalCode} (ht : s.canTake h.port = true)
    (hb : s.refusedBefore h k = some code) (body : State → Answer) : s.request h k body = s.refusedWith h k code := by
  simp [State.request, ht, hb, State.refusedWith]

/-- A message that cannot be taken is discarded (R176). -/
theorem request_discarded {s : State} {h : ReqHead} {k : ReqKind} (ht : s.canTake h.port = false) (body : State → Answer) :
    s.request h k body = s.discardRequest h.port := by
  simp [State.request, ht]

/-- A screen request reaches the screen whose number it carries. -/
theorem onScreen_at {h : ReqHead} {n : Fin 8} (hn : h.screen.toNat = n.val) (f : Fin 8 → Answer) : onScreen h f = f n := by
  simp [onScreen, index?, hn, n.isLt]

/-- The holder that a screen's number names is the holder of its lock. -/
theorem lockHolder_screen (s : State) {screen : BitVec 4} {n : Fin 8} (hn : screen.toNat = n.val) :
    s.lockHolder screen = s.screenLocks[n] := by
  simp [State.lockHolder, index?, hn, n.isLt]

/-- The holder that screen number 15 names is the holder of the part lock. -/
theorem lockHolder_part (s : State) : s.lockHolder 15 = s.partLock := by simp [State.lockHolder, index?]

/-- A lock stands against a node exactly when another node holds it (R178). -/
theorem heldAgainst_iff (holder source : Byte) : heldAgainst holder source = true ↔ holder ≠ 0 ∧ holder ≠ source := by
  simp [heldAgainst]

/-! ### The checks before an owning block -/

/-- What a request leaves that its owning block was handed (R179, R180). -/
def outcome (s : State) (h : ReqHead) (k : ReqKind) (body : State → Answer) : State :=
  match body s with
  | .refuse code => s.refusedWith h k code
  | .done t items => t.answered h k items

/-- A request that is taken can be answered (R176). -/
theorem takes_can {s : State} {h : ReqHead} (ht : s.takes h) : s.canTake h.port = true := (canTake_iff _ _).2 ⟨ht.2.1, ht.2.2⟩

/-- A request of class SCREEN: the checks of R177 and R178, and then what its owning block answers. -/
theorem under_screen {c h k s} {effect : Fin 8 → Prop} (body) (hx : exec c s = live s fun s => s.request h k body)
    (h1 : k.takesScreen = true) (h2 : k.takesPart = false) (h3 : k.cls = .screen)
    (he : ∀ n : Fin 8, h.screen.toNat = n.val → exec c s = .next (outcome s h k body) → effect n) :
    UnderScreenLock c h k s effect := by
  intro ht
  have hc := takes_can ht
  refine ⟨fun h15 => ?_, fun n hn => ⟨fun hl => ?_, fun hl => ?_⟩⟩
  · rw [State.goes, hx, live_on ht.1, request_refused hc (code := .range)]
    simp [State.refusedBefore, h15, h2]
  · rw [State.goes, hx, live_on ht.1, request_refused hc (code := .locked)]
    have : h.screen ≠ 15 := by intro e; have := n.isLt; simp [e] at hn; omega
    have : ¬ 8 ≤ h.screen.toNat := by have := n.isLt; omega
    simp_all [State.refusedBefore, State.lockedOut, lockHolder_screen s hn, heldAgainst_iff, heldByAnother]
  · refine he n hn ?_
    rw [hx, live_on ht.1, request_taken hc]
    · rfl
    · have : h.screen ≠ 15 := by intro e; have := n.isLt; simp [e] at hn; omega
      have : ¬ 8 ≤ h.screen.toNat := by have := n.isLt; omega
      have hl' : heldAgainst s.screenLocks[n] h.source = false := by
        cases e : heldAgainst s.screenLocks[n] h.source
        · rfl
        · exact absurd ((heldAgainst_iff _ _).1 e) hl
      simp_all [State.refusedBefore, State.lockedOut, lockHolder_screen s hn]

/-- A request of class PART or RESET in its form with screen number 15: the checks of R177 and R178, and then what its owning block
answers. -/
theorem under_part {c h k s} {effect : Prop} (body) (hx : exec c s = live s fun s => s.request h k body)
    (h1 : k.takesScreen = false) (h2 : k.takesPart = true) (h3 : k.cls = .part ∨ k.cls = .reset)
    (he : h.screen = 15 → exec c s = .next (outcome s h k body) → effect) :
    UnderPartLock c h k s effect := by
  intro ht
  have hc := takes_can ht
  refine ⟨fun hn => ?_, fun h15 => ⟨fun hl => ?_, fun hl => ?_⟩⟩
  · rw [State.goes, hx, live_on ht.1, request_refused hc (code := .range)]
    have : h.screen ≠ 15 := by intro e; simp [e] at hn
    have : ¬ 8 ≤ h.screen.toNat := by omega
    simp_all [State.refusedBefore]
  · rw [State.goes, hx, live_on ht.1, request_refused hc (code := .locked)]
    rcases h3 with h3 | h3 <;> simp_all [State.refusedBefore, State.lockedOut, heldAgainst_iff, heldByAnother]
  · refine he h15 ?_
    rw [hx, live_on ht.1, request_taken hc]
    · rfl
    · have hl' : heldAgainst s.partLock h.source = false := by
        cases e : heldAgainst s.partLock h.source
        · rfl
        · exact absurd ((heldAgainst_iff _ _).1 e) hl
      rcases h3 with h3 | h3 <;> simp_all [State.refusedBefore, State.lockedOut]

/-! ### The alarm summary -/

/-- The lesser of two optional levels is present where either is, and is the smaller. -/
theorem lesser_some (a : Option Nat) (x : Nat) : lesser a (some x) = some (match a with | some y => min y x | none => x) := by
  cases a <;> rfl

/-- The fold of `formSummary` over any list of ids: a lower bound that is reached. -/
theorem foldSummary (m : Monitor) (l : List (Fin 54)) (acc : Option Nat) :
    let r := l.foldl (fun acc id => if m.alarms[id].stands then lesser acc (some (m.levelOf id)) else acc) acc
    (r = none ↔ acc = none ∧ ∀ id ∈ l, m.alarms[id].stands = false) ∧
      ∀ lv, r = some lv → (acc = some lv ∨ ∃ id ∈ l, m.alarms[id].stands = true ∧ m.levelOf id = lv) ∧
        (∀ x, acc = some x → lv ≤ x) ∧ ∀ id ∈ l, m.alarms[id].stands = true → lv ≤ m.levelOf id := by
  induction l generalizing acc with
  | nil =>
    refine ⟨by simp, fun lv h => ⟨.inl h, fun x hx => ?_, by simp⟩⟩
    simp_all
  | cons a l ih =>
    have h := ih (if m.alarms[a].stands then lesser acc (some (m.levelOf a)) else acc)
    simp only [List.foldl_cons]
    cases hs : m.alarms[a].stands with
    | false =>
      simp only [hs, Bool.false_eq_true, if_false] at h ⊢
      refine ⟨h.1.trans ?_, fun lv e => ?_⟩
      · simp only [List.mem_cons, forall_eq_or_imp, hs, true_and]
      · obtain ⟨h1, h2, h3⟩ := h.2 lv e
        refine ⟨h1.imp id fun ⟨i, hi, r⟩ => ⟨i, List.mem_cons_of_mem _ hi, r⟩, h2, ?_⟩
        intro i hi hst
        rcases List.mem_cons.1 hi with rfl | hi
        · rw [hs] at hst; cases hst
        · exact h3 i hi hst
    | true =>
      simp only [hs, if_true, lesser_some] at h ⊢
      refine ⟨h.1.trans ?_, fun lv e => ?_⟩
      · simp only [List.mem_cons, forall_eq_or_imp, hs, reduceCtorEq, false_and, and_false]
      · obtain ⟨h1, h2, h3⟩ := h.2 lv e
        have hb := h2 _ rfl
        cases acc with
        | none =>
          simp only at hb h1
          refine ⟨?_, by simp, ?_⟩
          · rcases h1 with h1 | ⟨i, hi, r⟩
            · exact .inr ⟨a, by simp, hs, by simpa using h1⟩
            · exact .inr ⟨i, List.mem_cons_of_mem _ hi, r⟩
          · intro i hi hst
            rcases List.mem_cons.1 hi with rfl | hi
            · exact hb
            · exact h3 i hi hst
        | some y =>
          simp only at hb h1
          refine ⟨?_, ?_, ?_⟩
          · rcases h1 with h1 | ⟨i, hi, r⟩
            · rcases Nat.le_total y (m.levelOf a) with hy | hy
              · rw [Nat.min_eq_left hy] at h1; exact .inl h1
              · rw [Nat.min_eq_right hy] at h1; exact .inr ⟨a, by simp, hs, by simpa using h1⟩
            · exact .inr ⟨i, List.mem_cons_of_mem _ hi, r⟩
          · intro x hx; cases hx; omega
          · intro i hi hst
            rcases List.mem_cons.1 hi with rfl | hi
            · omega
            · exact h3 i hi hst

/-- The summary is absent exactly when no instance stands (R129). -/
theorem formSummary_none (m : Monitor) : m.formSummary = none ↔ ∀ id : Fin 54, m.alarms[id].stands = false := by
  have h := (foldSummary m (List.finRange 54) none).1
  simpa [Monitor.formSummary] using h

/-- A level that a standing instance has, and that no standing instance is below, is the summary (R129). -/
theorem formSummary_some (m : Monitor) (lv : Nat) (hw : ∃ id : Fin 54, m.alarms[id].stands = true ∧ m.levelOf id = lv)
    (hm : ∀ id : Fin 54, m.alarms[id].stands = true → lv ≤ m.levelOf id) : m.formSummary = some lv := by
  have h := foldSummary m (List.finRange 54) none
  simp only at h
  cases hr : m.formSummary with
  | none =>
    obtain ⟨i, hi, _⟩ := hw
    rw [(formSummary_none m).1 hr i] at hi
    cases hi
  | some x =>
    obtain ⟨h1, -, h3⟩ := h.2 x hr
    obtain ⟨i, hi, hl⟩ := hw
    have a := h3 i (by simp) hi
    rcases h1 with h1 | ⟨j, -, hj, e⟩
    · cases h1
    · have b := hm j hj
      rw [e] at b
      rw [hl] at a
      exact congrArg some (Nat.le_antisymm a b)

/-! ### Cue lists -/

/-- A placing adds the cue and nothing else (R134). -/
theorem placeCue_perm (c : Cue) (l : List Cue) : (placeCue c l).Perm (c :: l) := by
  induction l with
  | nil => exact List.Perm.refl _
  | cons d ds ih =>
    simp only [placeCue]
    split
    · exact List.Perm.refl _
    · exact (ih.cons d).trans (List.Perm.swap c d ds)

/-- List order is transitive (R134). -/
theorem Cue.before_trans {a b c : Cue} (h : a.before b = true) (k : b.before c = true) : a.before c = true := by
  simp only [Cue.before, Bool.or_eq_true, Bool.and_eq_true, decide_eq_true_eq, beq_iff_eq] at *
  rcases h with h | ⟨h, h'⟩ <;> rcases k with k | ⟨k, k'⟩
  · exact .inl (by omega)
  · exact .inl (by rw [← k]; exact h)
  · exact .inl (by rw [h]; exact k)
  · exact .inr ⟨h.trans k, by omega⟩

/-- Of two cues with different ids one stands before the other (R134). -/
theorem Cue.before_total {a b : Cue} (h : a.id ≠ b.id) (k : a.before b = false) : b.before a = true := by
  simp only [Cue.before, Bool.or_eq_false_iff, Bool.and_eq_false_iff, decide_eq_false_iff_not, beq_eq_false_iff_ne] at k
  simp only [Cue.before, Bool.or_eq_true, Bool.and_eq_true, decide_eq_true_eq, beq_iff_eq]
  obtain ⟨k1, k2⟩ := k
  by_cases e : a.trigger = b.trigger
  · rcases k2 with k2 | k2
    · exact absurd e k2
    · exact .inr ⟨e.symm, by omega⟩
  · refine .inl ?_
    have : a.trigger.toNat ≠ b.trigger.toNat := fun q => e (BitVec.eq_of_toNat_eq q)
    omega

/-- A placing keeps list order, where no cue of the list has the placed cue's id (R134). -/
theorem placeCue_sorted (c : Cue) (l : List Cue) (h : l.Pairwise fun a b => a.before b = true) (hn : ∀ d ∈ l, d.id ≠ c.id) :
    (placeCue c l).Pairwise fun a b => a.before b = true := by
  induction l with
  | nil => simp [placeCue]
  | cons d ds ih =>
    obtain ⟨h1, h2⟩ := List.pairwise_cons.1 h
    simp only [placeCue]
    split
    · next hb =>
      refine List.pairwise_cons.2 ⟨fun x hx => ?_, h⟩
      rcases List.mem_cons.1 hx with rfl | hx
      · exact hb
      · exact Cue.before_trans hb (h1 x hx)
    · next hb =>
      refine List.pairwise_cons.2 ⟨fun x hx => ?_, ih h2 fun e he => hn e (List.mem_cons_of_mem _ he)⟩
      rcases List.mem_cons.1 ((placeCue_perm c ds).subset hx) with rfl | hx
      · exact Cue.before_total (fun q => hn d (by simp) q.symm) (by simpa using hb)
      · exact h1 x hx

end Sys2Proof.Machine
end

