-- ==== Sys2Proof/Laws/Alarms.lean ====
section
/-! SUPPORT. What one occurrence, one pending flag, an early end and an announcement to the screens can do: one lemma for each, to
cite in place of unfolding them. -/

namespace Sys2Proof.Machine

/-! ### The parts of a unit that an operation leaves -/

@[simp] theorem Monitor.clearWhere_pending (cond : Fin 54 → Bool) (m : Monitor) : (m.clearWhere cond).pending = m.pending := by
  simp only [Monitor.clearWhere]
@[simp] theorem Monitor.clearWhere_table (cond : Fin 54 → Bool) (m : Monitor) : (m.clearWhere cond).table = m.table := by
  simp only [Monitor.clearWhere]
@[simp] theorem Monitor.clearWhere_alarm (cond : Fin 54 → Bool) (m : Monitor) (id : Fin 54) :
    (m.clearWhere cond).alarms[id] = if cond id then alarmClear else m.alarms[id] := by simp [Monitor.clearWhere]
@[simp] theorem Monitor.summarise_alarms (m : Monitor) : m.summarise.alarms = m.alarms := rfl
@[simp] theorem Monitor.summarise_pending (m : Monitor) : m.summarise.pending = m.pending := rfl
@[simp] theorem Monitor.summarise_table (m : Monitor) : m.summarise.table = m.table := rfl
@[simp] theorem Monitor.endEarly_pending (id : Fin 54) (m : Monitor) : (m.endEarly id).pending = m.pending := rfl
@[simp] theorem Monitor.endEarly_table (id : Fin 54) (m : Monitor) : (m.endEarly id).table = m.table := rfl

/-! ### An early end -/

/-- An instance that no timed command has ended is found as it stands. -/
@[simp] theorem Alarm.resumed_none {a : Alarm} (h : a.early = none) : a.resumed = a := by simp [Alarm.resumed, h]

/-- An instance ended at the end of its window is CLEAR, and is found again with its last block (R117, assumption log 2). -/
theorem Alarm.endedEarly_window {a : Alarm} (h : a.state = .qualifying) :
    a.endedEarly.state = .clear ∧
      a.endedEarly.resumed = { state := .qualifying, count := a.count, left := 1, clean := 0, hit := false } := by
  simp [Alarm.endedEarly, Alarm.resumed, alarmClear, h]

/-- An instance ended at the end of its release is CLEAR, and is found again with its clean run (R117, assumption log 2). -/
theorem Alarm.endedEarly_release {a : Alarm} (h : a.state = .releasing) :
    a.endedEarly.state = .clear ∧
      a.endedEarly.resumed = { state := .releasing, count := 0, left := 0, clean := a.clean, hit := false } := by
  simp [Alarm.endedEarly, Alarm.resumed, alarmClear, h]

/-- The coming boundary leaves an instance CLEAR. -/
theorem clearsAtBoundary_iff (s : State) (n : Fin 8) (id : Fin 54) :
    s.clearsAtBoundary n id = true ↔ s.boundary.screens[n].mon.alarms[id].state = .clear := by
  simp only [State.clearsAtBoundary, beq_iff_eq]

/-- A timed alarm command ends its instance where the item ends and the coming boundary clears it. -/
theorem endAlarm_ends {s : State} {n : Fin 8} {id : Fin 54} {ends : Bool} (h : ends = true) (k : s.clearsAtBoundary n id = true) :
    s.endAlarm n id ends = s.alarmEvent n (Monitor.endEarly id) := if_pos (by rw [h, k]; rfl)

/-- Otherwise it does nothing. -/
theorem endAlarm_stays {s : State} {n : Fin 8} {id : Fin 54} {ends : Bool} (h : ends = false ∨ s.clearsAtBoundary n id = false) :
    s.endAlarm n id ends = s := if_neg (by rcases h with h | h <;> simp [h])

/-! ### Pending flags and occurrences -/

/-- Setting a pending flag touches the pending set alone (R123). -/
theorem setPending_alarms (id : Fin 54) (m : Monitor) : (m.setPending id).alarms = m.alarms := by
  unfold Monitor.setPending; split <;> rfl

/-- Setting a pending flag touches the pending set alone (R123). -/
theorem setPending_rest (id : Fin 54) (m : Monitor) : m.setPending id = { m with pending := (m.setPending id).pending } := by
  unfold Monitor.setPending; split <;> rfl

/-- An id is added unnoticed where absent, and stands as it is where present (R123). -/
theorem setPending_same (id : Fin 54) (m : Monitor) : (m.setPending id).pending[id] = some ((m.pending[id]).getD false) := by
  unfold Monitor.setPending; split
  · next h => simp only [h]; simp
  · next h => simp only [h]; simp

/-- No other id's flag changes (R123). -/
theorem setPending_other {id i : Fin 54} (h : i ≠ id) (m : Monitor) : (m.setPending id).pending[i] = m.pending[i] := by
  have hi : id.val ≠ i.val := fun k => h (Fin.ext k.symm)
  unfold Monitor.setPending; split
  · simp [hi]
  · rfl

/-- An instance that is not watched ignores an occurrence (R110). -/
theorem offer_unwatched {m : Monitor} {id : Fin 54} (h : m.watches id = false) : m.offer id = m := by
  simp [Monitor.offer, h]

/-- A watched instance takes an occurrence, and an entry into RAISED from CLEAR or QUALIFYING sets its flag (R116, R118). -/
theorem offer_watched {m : Monitor} {id : Fin 54} (h : m.watches id = true) : m.offer id =
    let r := m.alarms[id].resumed.occurrence (m.record id)
    let m' : Monitor := { m with alarms := m.alarms.set id.val r.1 }
    if r.2 then m'.setPending id else m' := by
  simp only [Monitor.offer, h, if_true]

/-- The instances after an occurrence that a watched one takes (R116). -/
theorem offer_alarms {m : Monitor} {id : Fin 54} (h : m.watches id = true) :
    (m.offer id).alarms = m.alarms.set id.val (m.alarms[id].resumed.occurrence (m.record id)).1 := by
  rw [offer_watched h]
  simp only
  split
  · rw [setPending_alarms]
  · rfl

/-- What a watched instance becomes (R116). -/
theorem offer_alarm {m : Monitor} {id : Fin 54} (h : m.watches id = true) :
    (m.offer id).alarms[id] = (m.alarms[id].resumed.occurrence (m.record id)).1 := by
  simp [offer_alarms h]

/-- What a watched instance's pending flag becomes (R118, R123). -/
theorem offer_pending {m : Monitor} {id : Fin 54} (h : m.watches id = true) : (m.offer id).pending[id] =
    if (m.alarms[id].resumed.occurrence (m.record id)).2 then some ((m.pending[id]).getD false) else m.pending[id] := by
  rw [offer_watched h]
  simp only
  split
  · exact setPending_same id _
  · rfl

/-- An occurrence leaves every other instance and every other flag (R116). -/
theorem offer_other {id i : Fin 54} (h : i ≠ id) (m : Monitor) :
    (m.offer id).alarms[i] = m.alarms[i] ∧ (m.offer id).pending[i] = m.pending[i] := by
  have hi : id.val ≠ i.val := fun k => h (Fin.ext k.symm)
  cases hw : m.watches id
  · rw [offer_unwatched hw]; exact ⟨rfl, rfl⟩
  · refine ⟨by simp [offer_alarms hw, hi], ?_⟩
    rw [offer_watched hw]
    simp only
    split
    · exact setPending_other h _
    · rfl

/-- An occurrence touches the instances and the pending set alone. -/
theorem offer_rest (m : Monitor) (id : Fin 54) :
    m.offer id = { m with alarms := (m.offer id).alarms, pending := (m.offer id).pending } := by
  cases hw : m.watches id
  · rw [offer_unwatched hw]
  · rw [offer_watched hw]
    simp only
    split
    · rw [setPending_rest]
    · rfl

/-! ### Over the state -/

/-- An alarm event changes one screen's unit, and the ALARM-mode lines that follow its new summary (R129, R158). -/
theorem alarmEvent_eq (s : State) (n : Fin 8) (f : Monitor → Monitor) : s.alarmEvent n f =
    { s.modMon n fun m => (f m).summarise with
      lines := Vector.ofFn fun l => s.lines[l].followSummary n (f s.screens[n].mon).formSummary } := by
  simp [State.alarmEvent, State.handSummary, Monitor.summarise]

/-- An announcement that a screen does not react to: HUNT, DOWN and HOLDOVER (R8). -/
theorem announce_unheard (s : State) (p : Fin 12) {st : PortState} (h : st = .hunt ∨ st = .down ∨ st = .holdover) :
    s.announce p st = s := by
  have : ∀ n t, State.hearAnnouncement p st n t = t := by intro n t; rcases h with rfl | rfl | rfl <;> rfl
  unfold State.announce forScreens forEach
  simp [this]

end Sys2Proof.Machine
end

