-- ==== Sys2Proof/Laws/PerInstr.lean ====
section
/-! SUPPORT. A property of every command as syntax, one lemma for each constructor of `Instr`: the one-word operands of a
well-formed command fit a service word (R193). -/

namespace Sys2Proof.Laws.WellFormed

-- The lemmas share the equations of `wf` and `oneWordOperands`: elaborate them one after another, on one thread.
set_option Elab.async false

/-- The one-word operands of a drive (R143). -/
def driveWords : Drive → List Nat
  | .closeLine | .openLine => []
  | .pulse ms => [ms]

/-- The one-word operands of a cue action (R149). -/
def actionWords : CueAction → List Nat
  | .contact line d => line :: driveWords d
  | .fade t d => [t, d]
  | .format tag => tag.toList
  | .mark level => [level]
  | .mute _ | .eqBank _ | .source _ | .quiet _ => []

/-- The one-word operands of a SCREEN-SET item (R60). -/
def itemWords : ScreenItem → List Nat
  | .primary p | .alternate p | .override p => p.toList
  | .fallback n | .meterSpeed n | .window n => [n]
  | .mapEntry channel e => channel :: e.gain :: e.partner.toList
  | .follow _ | .foldEnable _ => []

/-- The one-word operands of the steering fields (R67). -/
def steeringWords : Option SteeringOperand → List Nat
  | some st => [st.first, st.second, st.shift, st.slew]
  | none => []

/-- The one-word operands of FORMAT-READ's forms (R82). -/
def formatQueryWords : FormatQuery → List Nat
  | .tag tag (some (row, _)) => [tag, row]
  | .tag tag none => [tag]
  | .screen => []

/-- The one-word operands of EQ-READ's forms (R106). -/
def eqQueryWords : EqQuery → List Nat
  | .channel _ channel first => [channel, first]
  | .screen | .part => []

/-- The one-word operands of a selection of cues (R151). -/
def selectionWords : CueSelection → List Nat
  | .ids l => l
  | .all => []

/-- The one-word operands of CUE-READ's forms (R154). -/
def cueQueryWords : CueQuery → List Nat
  | .cue id => [id]
  | .list index => [index]
  | .screen | .part => []

/-- The one-word operands of NOTICE-READ's forms (R173). -/
def noticeQueryWords : NoticeQuery → List Nat
  | .port port => [port]
  | .screen => []

/-- The one-word operands of a screen's route (R166). -/
def routeWords : Option RouteOperand → List Nat
  | some { port, share := some (g, w), .. } => [port, g, w]
  | some { port, share := none, .. } => [port]
  | none => []

/-- The one-word operands of a command (R193). -/
def oneWordOperands : Instr → List Nat
  | .powerOn _ | .partResetTakesEffect | .programFrameArrival _ _ | .masterFrame | .arbiterGrant _ | .messageSent _
  | .noticeChoice _ | .rackFrameArrival _ _ | .masterBlockBoundary | .crossfadeEnd _ | .qualifyWindowExpiry _ _
  | .releaseComplete _ _ | .holdoverExpiry _ | .fastDropWindowClose _ | .exchangeTimeout _ | .serviceTimeout _
  | .responseExpiry _ | .arbiterReload _ | .quietIntervalEnd _ | .contactPulseEnd _ | .partReset _ | .lockTake _
  | .lockFree _ _ | .screenState _ _ | .screenSource _ _ | .screenReset _ | .eqSelect _ _ | .mute _ _
  | .noticeDone _ _ | .unknownRequest _ _ _ | .powerLoss => []
  | .partStatus _ part => [part]
  | .portRead _ port part => [port, part]
  | .portSet _ port _ holdover dropCount dropWindow _ => [port, holdover, dropCount, dropWindow]
  | .portClear _ port => [port]
  | .portRestart _ port => [port]
  | .screenRead _ part => [part]
  | .screenSet _ items => items.flatMap itemWords
  | .formatLoadBegin _ header => [header.tag, header.inputs] ++ steeringWords header.steering
  | .formatLoadRows _ tag row _ _ => [tag, row]
  | .formatLoadCommit _ tag => [tag]
  | .formatLoadClear _ tag => [tag]
  | .formatRead _ query part => part :: formatQueryWords query
  | .eqLoadHead _ _ channel count delay trim => [channel, count, delay, trim]
  | .eqLoadSections _ _ channel first _ => [channel, first]
  | .eqRead _ query part => part :: eqQueryWords query
  | .fade _ target duration => [target, duration]
  | .meterRead _ part => [part]
  | .alarmSet _ _ record => [record.level, record.count, record.window, record.release]
  | .alarmRead _ id part => part :: id.toList
  | .alarmAck _ ids => ids
  | .alarmTest _ ids => ids
  | .cueLoad _ cue => cue.id :: actionWords cue.action
  | .cueDelete _ which => selectionWords which
  | .cueRead _ query part => part :: cueQueryWords query
  | .cueFire _ id => [id]
  | .cueRearm _ which => selectionWords which
  | .contactSet _ line owner _ threshold => line :: threshold :: owner.toList
  | .contactDrive _ line drive => line :: driveWords drive
  | .noticeRead _ query part => part :: noticeQueryWords query
  | .noticeRouteScreen _ route => routeWords route
  | .noticeRoutePort _ port count weight interval => [port, count, weight, interval]

/-- The one-word operands of a well-formed command fit a service word (R193). -/
def Statement (i : Instr) : Prop := i.wf = true → ∀ k ∈ oneWordOperands i, k ≤ 65535

/-- `powerOn`. -/
theorem powerOn (straps : BitVec 4) : Statement (.powerOn straps) := by
  simp [Statement, oneWordOperands]

/-- `partResetTakesEffect`. -/
theorem partResetTakesEffect : Statement .partResetTakesEffect := by
  simp [Statement, oneWordOperands]

/-- `programFrameArrival`. -/
theorem programFrameArrival (port : Fin 12) (frame : LinkFrame 16) : Statement (.programFrameArrival port frame) := by
  simp [Statement, oneWordOperands]

/-- `masterFrame`. -/
theorem masterFrame : Statement .masterFrame := by
  simp [Statement, oneWordOperands]

/-- `arbiterGrant`. -/
theorem arbiterGrant (port : Fin 12) : Statement (.arbiterGrant port) := by
  simp [Statement, oneWordOperands]

/-- `messageSent`. -/
theorem messageSent (port : Fin 12) : Statement (.messageSent port) := by
  simp [Statement, oneWordOperands]

/-- `noticeChoice`. -/
theorem noticeChoice (screen : Fin 8) : Statement (.noticeChoice screen) := by
  simp [Statement, oneWordOperands]

/-- `rackFrameArrival`. -/
theorem rackFrameArrival (screen : Fin 8) (frame : LinkFrame 1) : Statement (.rackFrameArrival screen frame) := by
  simp [Statement, oneWordOperands]

/-- `masterBlockBoundary`. -/
theorem masterBlockBoundary : Statement .masterBlockBoundary := by
  simp [Statement, oneWordOperands]

/-- `crossfadeEnd`. -/
theorem crossfadeEnd (screen : Fin 8) : Statement (.crossfadeEnd screen) := by
  simp [Statement, oneWordOperands]

/-- `qualifyWindowExpiry`. -/
theorem qualifyWindowExpiry (screen : Fin 8) (alarm : Fin 54) : Statement (.qualifyWindowExpiry screen alarm) := by
  simp [Statement, oneWordOperands]

/-- `releaseComplete`. -/
theorem releaseComplete (screen : Fin 8) (alarm : Fin 54) : Statement (.releaseComplete screen alarm) := by
  simp [Statement, oneWordOperands]

/-- `holdoverExpiry`. -/
theorem holdoverExpiry (port : Fin 12) : Statement (.holdoverExpiry port) := by
  simp [Statement, oneWordOperands]

/-- `fastDropWindowClose`. -/
theorem fastDropWindowClose (port : Fin 12) : Statement (.fastDropWindowClose port) := by
  simp [Statement, oneWordOperands]

/-- `exchangeTimeout`. -/
theorem exchangeTimeout (screen : Fin 8) : Statement (.exchangeTimeout screen) := by
  simp [Statement, oneWordOperands]

/-- `serviceTimeout`. -/
theorem serviceTimeout (port : Fin 12) : Statement (.serviceTimeout port) := by
  simp [Statement, oneWordOperands]

/-- `responseExpiry`. -/
theorem responseExpiry (port : Fin 12) : Statement (.responseExpiry port) := by
  simp [Statement, oneWordOperands]

/-- `arbiterReload`. -/
theorem arbiterReload (port : Fin 12) : Statement (.arbiterReload port) := by
  simp [Statement, oneWordOperands]

/-- `quietIntervalEnd`. -/
theorem quietIntervalEnd (screen : Fin 8) : Statement (.quietIntervalEnd screen) := by
  simp [Statement, oneWordOperands]

/-- `contactPulseEnd`. -/
theorem contactPulseEnd (line : Fin 16) : Statement (.contactPulseEnd line) := by
  simp [Statement, oneWordOperands]

/-- `partStatus`. -/
theorem partStatus (h : ReqHead) (part : Nat) : Statement (.partStatus h part) := by
  simp [Statement, Instr.wf, oneWordOperands, wordFits]

/-- `partReset`. -/
theorem partReset (h : ReqHead) : Statement (.partReset h) := by
  simp [Statement, oneWordOperands]

/-- `lockTake`. -/
theorem lockTake (h : ReqHead) : Statement (.lockTake h) := by
  simp [Statement, oneWordOperands]

/-- `lockFree`. -/
theorem lockFree (h : ReqHead) (force : Bool) : Statement (.lockFree h force) := by
  simp [Statement, oneWordOperands]

/-- `portRead`. -/
theorem portRead (h : ReqHead) (port : Nat) (part : Nat) : Statement (.portRead h port part) := by
  simp [Statement, Instr.wf, oneWordOperands, wordFits]

/-- `portSet`. -/
theorem portSet (h : ReqHead) (port : Nat) (enable : Bool) (holdover : Nat) (dropCount : Nat) (dropWindow : Nat) (dropEnable : Bool) : Statement (.portSet h port enable holdover dropCount dropWindow dropEnable) := by
  simp [Statement, Instr.wf, oneWordOperands, wordFits]; omega

/-- `portClear`. -/
theorem portClear (h : ReqHead) (port : Nat) : Statement (.portClear h port) := by
  simp [Statement, Instr.wf, oneWordOperands, wordFits]

/-- `portRestart`. -/
theorem portRestart (h : ReqHead) (port : Nat) : Statement (.portRestart h port) := by
  simp [Statement, Instr.wf, oneWordOperands, wordFits]

/-- `screenRead`. -/
theorem screenRead (h : ReqHead) (part : Nat) : Statement (.screenRead h part) := by
  simp [Statement, Instr.wf, oneWordOperands, wordFits]

/-- `screenSet`. -/
theorem screenSet (h : ReqHead) (items : List ScreenItem) : Statement (.screenSet h items) := by
  intro h k hk
  simp only [Instr.wf, Bool.and_eq_true, List.all_eq_true, decide_eq_true_eq] at h
  obtain ⟨i, hi, hk⟩ := List.mem_flatMap.1 hk
  have hw := h.1 i hi
  rcases i with (_ | p) | (_ | p) | _ | n | (_ | p) | ⟨channel, ⟨role, expected, _ | partner, gain⟩⟩ | _ | n | n <;>
    simp [ScreenItem.wf, itemWords, optFits, wordFits] at hw hk <;> omega

/-- `screenState`. -/
theorem screenState (h : ReqHead) (state : ScreenState) : Statement (.screenState h state) := by
  simp [Statement, oneWordOperands]

/-- `screenSource`. -/
theorem screenSource (h : ReqHead) (role : SourceRole) : Statement (.screenSource h role) := by
  simp [Statement, oneWordOperands]

/-- `screenReset`. -/
theorem screenReset (h : ReqHead) : Statement (.screenReset h) := by
  simp [Statement, oneWordOperands]

/-- `formatLoadBegin`. -/
theorem formatLoadBegin (h : ReqHead) (header : FormatHeader) : Statement (.formatLoadBegin h header) := by
  rcases header with ⟨tag, inputs, _ | st, roles⟩ <;>
    simp [Statement, Instr.wf, FormatHeader.wf, oneWordOperands, steeringWords, wordFits] <;> omega

/-- `formatLoadRows`. -/
theorem formatLoadRows (h : ReqHead) (tag : Nat) (row : Nat) (matrix : Matrix) (coefs : List Int) : Statement (.formatLoadRows h tag row matrix coefs) := by
  simp only [Statement, Instr.wf, oneWordOperands, wordFits, Bool.and_eq_true, decide_eq_true_eq]
  intro h k hk
  simp at hk
  omega

/-- `formatLoadCommit`. -/
theorem formatLoadCommit (h : ReqHead) (tag : Nat) : Statement (.formatLoadCommit h tag) := by
  simp [Statement, Instr.wf, oneWordOperands, wordFits]

/-- `formatLoadClear`. -/
theorem formatLoadClear (h : ReqHead) (tag : Nat) : Statement (.formatLoadClear h tag) := by
  simp [Statement, Instr.wf, oneWordOperands, wordFits]

/-- `formatRead`. -/
theorem formatRead (h : ReqHead) (query : FormatQuery) (part : Nat) : Statement (.formatRead h query part) := by
  rcases query with ⟨tag, _ | ⟨row, m⟩⟩ | _ <;> simp [Statement, Instr.wf, oneWordOperands, formatQueryWords, wordFits] <;> omega

/-- `eqLoadHead`. -/
theorem eqLoadHead (h : ReqHead) (bank : Bank) (channel : Nat) (count : Nat) (delay : Nat) (trim : Nat) : Statement (.eqLoadHead h bank channel count delay trim) := by
  simp [Statement, Instr.wf, oneWordOperands, wordFits]; omega

/-- `eqLoadSections`. -/
theorem eqLoadSections (h : ReqHead) (bank : Bank) (channel : Nat) (first : Nat) (sections : List Coefs) : Statement (.eqLoadSections h bank channel first sections) := by
  simp [Statement, Instr.wf, oneWordOperands, wordFits]; omega

/-- `eqRead`. -/
theorem eqRead (h : ReqHead) (query : EqQuery) (part : Nat) : Statement (.eqRead h query part) := by
  cases query <;> simp [Statement, Instr.wf, oneWordOperands, eqQueryWords, wordFits] <;> omega

/-- `eqSelect`. -/
theorem eqSelect (h : ReqHead) (bank : Bank) : Statement (.eqSelect h bank) := by
  simp [Statement, oneWordOperands]

/-- `fade`. -/
theorem fade (h : ReqHead) (target : Nat) (duration : Nat) : Statement (.fade h target duration) := by
  simp [Statement, Instr.wf, oneWordOperands, wordFits]

/-- `mute`. -/
theorem mute (h : ReqHead) (on : Bool) : Statement (.mute h on) := by
  simp [Statement, oneWordOperands]

/-- `meterRead`. -/
theorem meterRead (h : ReqHead) (part : Nat) : Statement (.meterRead h part) := by
  simp [Statement, Instr.wf, oneWordOperands, wordFits]

/-- `alarmSet`. -/
theorem alarmSet (h : ReqHead) (cls : AlarmClass) (record : AlarmOperand) : Statement (.alarmSet h cls record) := by
  simp only [Statement, Instr.wf, AlarmOperand.wf, oneWordOperands, wordFits, Bool.and_eq_true, decide_eq_true_eq]
  intro h k hk
  simp at hk
  omega

/-- `alarmRead`. -/
theorem alarmRead (h : ReqHead) (id : Option Nat) (part : Nat) : Statement (.alarmRead h id part) := by
  cases id <;> simp [Statement, Instr.wf, oneWordOperands, optFits, wordFits]; omega

/-- `alarmAck`. -/
theorem alarmAck (h : ReqHead) (ids : List Nat) : Statement (.alarmAck h ids) := by
  intro h k hk
  simp only [Instr.wf, listFits, wordFits, Bool.and_eq_true, List.all_eq_true, decide_eq_true_eq] at h
  exact h.1 k hk

/-- `alarmTest`. -/
theorem alarmTest (h : ReqHead) (ids : List Nat) : Statement (.alarmTest h ids) := by
  intro h k hk
  simp only [Instr.wf, listFits, wordFits, Bool.and_eq_true, List.all_eq_true, decide_eq_true_eq] at h
  exact h.1 k hk

/-- `cueLoad`. -/
theorem cueLoad (h : ReqHead) (cue : CueOperand) : Statement (.cueLoad h cue) := by
  rcases cue with ⟨id, program, trigger, action, catchUp, fireIfDue⟩
  rcases action with ⟨line, _ | _ | ms⟩ | _ | _ | _ | (_ | tag) | _ | _ | _ <;>
    simp [Statement, Instr.wf, CueAction.wf, Drive.wf, oneWordOperands, actionWords, driveWords, optFits, wordFits]; omega

/-- `cueDelete`. -/
theorem cueDelete (h : ReqHead) (which : CueSelection) : Statement (.cueDelete h which) := by
  intro h k hk
  cases which with
  | ids l =>
    simp only [Instr.wf, CueSelection.wf, listFits, wordFits, Bool.and_eq_true, List.all_eq_true, decide_eq_true_eq] at h
    exact h.1 k hk
  | all => simp [oneWordOperands, selectionWords] at hk

/-- `cueRead`. -/
theorem cueRead (h : ReqHead) (query : CueQuery) (part : Nat) : Statement (.cueRead h query part) := by
  cases query <;> simp [Statement, Instr.wf, oneWordOperands, cueQueryWords, wordFits] <;> omega

/-- `cueFire`. -/
theorem cueFire (h : ReqHead) (id : Nat) : Statement (.cueFire h id) := by
  simp [Statement, Instr.wf, oneWordOperands, wordFits]

/-- `cueRearm`. -/
theorem cueRearm (h : ReqHead) (which : CueSelection) : Statement (.cueRearm h which) := by
  intro h k hk
  cases which with
  | ids l =>
    simp only [Instr.wf, CueSelection.wf, listFits, wordFits, Bool.and_eq_true, List.all_eq_true, decide_eq_true_eq] at h
    exact h.1 k hk
  | all => simp [oneWordOperands, selectionWords] at hk

/-- `contactSet`. -/
theorem contactSet (h : ReqHead) (line : Nat) (owner : Option Nat) (mode : LineMode) (threshold : Nat) : Statement (.contactSet h line owner mode threshold) := by
  cases owner <;> simp [Statement, Instr.wf, oneWordOperands, optFits, wordFits]; omega

/-- `contactDrive`. -/
theorem contactDrive (h : ReqHead) (line : Nat) (drive : Drive) : Statement (.contactDrive h line drive) := by
  cases drive <;> simp [Statement, Instr.wf, Drive.wf, oneWordOperands, driveWords, wordFits]

/-- `noticeDone`. -/
theorem noticeDone (h : ReqHead) (tag : Option Word) : Statement (.noticeDone h tag) := by
  simp [Statement, oneWordOperands]

/-- `noticeRead`. -/
theorem noticeRead (h : ReqHead) (query : NoticeQuery) (part : Nat) : Statement (.noticeRead h query part) := by
  cases query <;> simp [Statement, Instr.wf, oneWordOperands, noticeQueryWords, wordFits] <;> omega

/-- `noticeRouteScreen`. -/
theorem noticeRouteScreen (h : ReqHead) (route : Option RouteOperand) : Statement (.noticeRouteScreen h route) := by
  rcases route with _ | ⟨port, node, _ | ⟨g, w⟩⟩ <;>
    simp [Statement, Instr.wf, oneWordOperands, routeWords, wordFits]

/-- `noticeRoutePort`. -/
theorem noticeRoutePort (h : ReqHead) (port : Nat) (count : Nat) (weight : Nat) (interval : Nat) : Statement (.noticeRoutePort h port count weight interval) := by
  simp [Statement, Instr.wf, oneWordOperands, wordFits]; omega

/-- `unknownRequest`. -/
theorem unknownRequest (h : ReqHead) (kind : BitVec 11) (response : Bool) : Statement (.unknownRequest h kind response) := by
  simp [Statement, oneWordOperands]

/-- `powerLoss`. -/
theorem powerLoss : Statement .powerLoss := by
  simp [Statement, oneWordOperands]

end Sys2Proof.Laws.WellFormed
end

