-- ==== Sys2Proof/Tests/Slice0.lean ====
section
/-! SUPPORT. Tests of the model: the well-formedness checks, one small test for each command with values from the spec's worked
cases, and for each statement a state that meets its hypotheses. -/

namespace Sys2Proof.Tests

open Sys2Proof Sys2Proof.Machine

-- One theorem after another, on one thread: each kernel evaluation holds a stack of its own.
set_option Elab.async false

/-! ### Helpers -/

/-- The state a command leaves. A command that stops leaves none. -/
def after (c : Instr) (s : State) : Option State :=
  match exec c s with
  | .next t => some t
  | .fault _ | .refused _ => none

/-- A request's head from node 0x34 on P0, with a screen number. -/
def head (screen : BitVec 4) : ReqHead := { port := 0, source := 0x34, tag := 0x0107, screen }

/-- The head of a request on screen 2. -/
def h2 : ReqHead := head 2

/-- The head of a request on the part. -/
def hp : ReqHead := head 15

/-- The part of the worked sequences: straps at 5, so that the node number is 0xC5. -/
def part : State := State.powerOn 5 []

/-- The part with screen 2 changed. -/
def screen2 (f : Screen → Screen) : State := part.modScreen 2 f

/-- The part with port P0 changed. -/
def port0 (f : Port → Port) : State := part.modPort 0 f

/-- The part with the arbiter of P0 changed. -/
def arb0 (f : Arbiter → Arbiter) : State := part.modArb 0 f

/-- The part with line 3 changed. -/
def line3 (f : Line → Line) : State := part.modLine 3 f

/-- The part with screen 2 in a state. -/
def inState (st : ScreenState) : State := screen2 fun x => { x with ctx := { x.ctx with state := st } }

/-- The part with screen 2's filter engine changed. -/
def engine2 (f : Engine → Engine) : State := screen2 fun x => { x with eng := f x.eng }

/-- The part with screen 2's meter and alarm unit changed. -/
def monitor2 (f : Monitor → Monitor) : State := screen2 fun x => { x with mon := f x.mon }

/-- The payload words of the response that stands at the tail of P0's queue. -/
def answer (s : Option State) : Option (List Word) :=
  s.bind fun t => t.arbiters[0].queue.getLast?.map fun r => (r.words.drop 3).dropLast

/-- A frame with normal sync and a good check. -/
def good {n : Nat} (index : Nat) (code : ServiceCode) (byte : Byte) (slots : Vector Slot n) (word : Word) : LinkFrame n :=
  mkFrame (mkHeader 0xA7 index code byte) slots word

/-- A good forward frame with silent slots. -/
def goodForward (index : Nat) : LinkFrame 16 := good index .idle 0 (Vector.replicate 16 5) 0

/-- A forward frame with the stop sync and a good check. -/
def stopForward (index : Nat) : LinkFrame 16 := mkFrame (mkHeader 0x58 index .idle 0) (Vector.replicate 16 5) 0

/-- A forward frame with neither sync. -/
def missForward : LinkFrame 16 := mkFrame (mkHeader 0x11 3 .idle 0) (Vector.replicate 16 5) 0

/-- A forward frame with normal sync and a bad check. -/
def badForward (index : Nat) : LinkFrame 16 := { goodForward index with check := (goodForward index).check + 1 }

/-- The frame with IDLE in place of its service word. -/
def idleOf (f : LinkFrame 16) : LinkFrame 16 :=
  mkFrame (mkHeader (headerSync f.header) (headerIndex f.header) .idle (headerByte f.header)) f.slots 0

/-- A good return frame with a status slot. -/
def goodReturn (index : Nat) (slot : Slot) : LinkFrame 1 := good index .idle 0 #v[slot] 0

/-- A return frame with normal sync and a bad check. -/
def badReturn (index : Nat) : LinkFrame 1 := { goodReturn index 0 with check := (goodReturn index 0).check + 1 }

/-- A return frame with neither sync. -/
def missReturn : LinkFrame 1 := mkFrame (mkHeader 0x11 3 .idle 0) #v[0] 0

/-! ### Well-formedness: each check refuses an ill-formed term -/

theorem test_wordFits : wordFits 65536 = false ∧ wordFits 65535 = true := by decide
theorem test_longFits : longFits 4294967296 = false ∧ longFits 4294967295 = true := by decide
theorem test_optFits : optFits (some 65536) = false ∧ optFits none = true := by decide
theorem test_coefFits : coefFits 32768 = false ∧ coefFits (-32769) = false ∧ coefFits (-32768) = true := by decide
theorem test_biquadFits : biquadFits 8388608 = false ∧ biquadFits (-8388609) = false ∧ biquadFits 8388607 = true := by decide
theorem test_sampleFits : sampleFits 2147483648 = false ∧ sampleFits (-2147483648) = true := by decide
theorem test_coefs_wf : (Coefs.mk 0 0 0 0 8388608).wf = false := by decide
theorem test_onScreen : (head 8).onScreen = false ∧ (head 7).onScreen = true := by decide
theorem test_drive_wf : (Drive.pulse 65536).wf = false := by decide
theorem test_action_wf : (CueAction.quiet 4294967296).wf = false ∧ (CueAction.contact 65536 .closeLine).wf = false := by decide
theorem test_item_wf : (ScreenItem.fallback 65536).wf = false ∧
    (ScreenItem.mapEntry 0 { role := none, expected := false, partner := some 65536, gain := 0 }).wf = false := by decide
theorem test_item_size : (Instr.screenSet h2 (List.replicate 31 (.follow true))).wf = false ∧
    (Instr.screenSet h2 (List.replicate 30 (.follow true))).wf = true := by decide
theorem test_header_wf : (FormatHeader.mk 16 2 none (List.replicate 53 .l)).wf = false := by decide
theorem test_alarm_operand_wf : (AlarmOperand.mk true 1 2147483648 1 1 1 false).wf = false := by decide
theorem test_listFits : listFits 0 (List.replicate 61 1) = false ∧ listFits 0 [65536] = false := by decide
theorem test_selection_wf : (CueSelection.ids (List.replicate 60 1)).wf = false ∧ CueSelection.all.wf = true := by decide
theorem test_unknown_wf : (Instr.unknownRequest h2 3 false).wf = false ∧ (Instr.unknownRequest h2 40 false).wf = true ∧
    (Instr.unknownRequest (head 8) 3 false).wf = true := by decide
theorem test_sections_wf : (Instr.eqLoadSections h2 .a 0 0 (List.replicate 7 (Coefs.mk 0 0 0 0 0))).wf = false := by decide
theorem test_query_wf : (Instr.noticeRead h2 (.port 0) 0).wf = false ∧ (Instr.noticeRead hp (.port 0) 0).wf = true := by decide

/-! ### The arithmetic of the spec's worked cases -/

/-- 00_scope.md, Arithmetic Terms. -/
theorem test_terms : asr (-5) 1 = -3 ∧ roundBy 1 5 = 3 ∧ roundBy 1 (-5) = -2 := by decide

/-- 04, the boundary of the worked case: weight, target and the L row's coefficients. -/
theorem test_steering : targetWeight 2000000 1000000 = 21 ∧ moveWeight 8 10 21 = 18 ∧ targetWeight 2400000 600000 = 38 ∧
    blend 16384 8192 18 = 14080 ∧ blend 0 (-8192) 18 = -2304 ∧ blend 11585 5793 18 = 9956 := by decide

/-- 04, the first and the later frame: role signals and envelopes. -/
theorem test_decode : roundBy 14 46340000000 = 2828369 ∧ roundBy 14 14079621220 = 859352 ∧
    saturateMarked (roundBy 14 173775000000) = { value := 8388607, clipped := true } ∧
    envelope 9 2000000 7500000 = 2010742 ∧ envelope 9 1000000 500000 = 999023 := by decide

/-- 05, the gain case: a section with b0 = 0.5 and a1 = -0.25, and the path's output. -/
theorem test_section :
    let c : Machine.Section := { coefs := { b0 := 524288, b1 := 0, b2 := 0, a1 := -262144, a2 := 0 }
                                 x1 := 0, x2 := 0, y1 := 400000, y2 := 0 }
    c.output 2437500 = { value := 1318750, clipped := false } ∧ gain 13045 16384 = 13045 ∧
    (Chain.mk [c] 0 13045).path [] 16384 2437500 = { value := 1049994, clipped := false } ∧
    blend 1049994 900000 16 = 1012496 := by decide

/-- 10, the lock request as words: its message in the example, taken from the service words. -/
theorem test_kind_word : kindWord false ReqKind.lockTake.number 2 = 0x0032 ∧ kindWord true ReqKind.lockTake.number 2 = 0x8032 := by
  decide

/-! ### Power, frames and boundaries -/

/-- 09, straps at 5 make node 0xC5. -/
theorem test_powerOn : (after (.powerOn 5) State.reset).map (·.node) = some 0xC5 := by decide +kernel

theorem test_partResetTakesEffect :
    (after .partResetTakesEffect { part with blockCounter := 7, resetPending := some { port := 0, due := true } }).map
      (fun t => (t.blockCounter, t.node)) = some (0, 0xC5) := by decide +kernel

/-- R2: the fourth good frame in a row locks. -/
theorem test_programFrameArrival :
    (after (.programFrameArrival 0 (goodForward 9)) (port0 fun x => { x with goodRun := 3, expected := some 9 })).map
      (fun t => (t.ports[0].state, t.ports[0].expected)) = some (.locked, some 10) := by decide +kernel

/-- R14: a descriptor byte is taken at expected index 0. -/
theorem test_programFrameArrival_byte :
    (after (.programFrameArrival 0 (good 0 .idle 0x7B (Vector.replicate 16 5) 0))
      (port0 fun x => { x with state := .locked, expected := some 0 })).map (fun t => t.ports[0].attempt) =
      some (some [some 0x7B]) := by decide +kernel

/-- R28: in DARK a forward frame carries the stop sync. -/
theorem test_masterFrame :
    (after .masterFrame part).map (fun t => (t.frameIndex, t.screens[0].link.sent.map fun g => headerSync g.header)) =
      some (1, some 0x58) := by decide +kernel

/-- R31: the first good return frame in HUNT. -/
theorem test_rackFrameArrival :
    (after (.rackFrameArrival 2 (goodReturn 47 0)) part).map (fun t => (t.screens[2].link.goodRun, t.screens[2].link.expected)) =
      some (1, some 0) := by decide +kernel

/-- 06, block b1 of the worked timeline: the level meets the threshold and the OVER instance of channel 2 qualifies. -/
def timeline : State := monitor2 fun m =>
  { m with table := m.table.set 1 { enable := true, level := 1, threshold := some 6000000, count := 3, window := 5
                                    release := 2, quiet := false }
           meters := m.meters.set 2 { running := 7200000, peak := 0, level := 5600000 } }

theorem test_masterBlockBoundary :
    (after .masterBlockBoundary (timeline.modCtx 2 fun c => { c with state := .running, meterSpeed := 2 })).map
      (fun t => (t.blockCounter, t.screens[2].mon.meters[2].level, t.screens[2].mon.alarms[(18 : Fin 54)])) =
      some (1, 6000000, { state := .qualifying, count := 1, left := 4, clean := 0, hit := false }) := by decide +kernel

/-- 05, the two fades: the boundary's step from 16,384 toward 8,192. -/
theorem test_masterBlockBoundary_fade :
    (after .masterBlockBoundary (engine2 fun e => { e with fader := 16384, fade := some { target := 8192, step := 2731 } })).map
      (fun t => t.screens[2].eng.fader) = some 13653 := by decide +kernel

/-! ### The part's own queued and timed steps -/

/-- 08, sharing the P0 channel: three responses wait after a reload, and grant 1 goes to RESP. -/
def sharing : State :=
  (port0 fun x => { x with state := .locked }).modArb 0 fun a =>
    { a with queue := List.replicate 3 { words := [1, 2, 3, 4], placedAt := 0, forReset := false } }

theorem test_arbiterGrant : (after (.arbiterGrant 0) sharing).map (fun t => (t.arbiters[0].respLeft, t.arbiters[0].queue.length)) =
    some (3, 2) := by decide +kernel

theorem test_messageSent :
    (after (.messageSent 0) (arb0 fun a => { a with channel := some { owner := .resp, words := [1], sent := 1, forReset := false } })).map
      (fun t => t.arbiters[0].channel) = some none := by decide +kernel

/-- 08, the nested notices: CLIP of channel 5, level 2, is chosen under an open ceiling. -/
def clipPending : State := screen2 fun x =>
  { x with ctx := { x.ctx with route := some { port := 0, node := 0x21, count := 1, weight := 1 } }
           mon := { x.mon with pending := x.mon.pending.set 5 (some false) } }

theorem test_noticeChoice : (after (.noticeChoice 2) clipPending).map (fun t =>
    (t.screens[2].notice.ceiling, t.screens[2].mon.pending[(5 : Fin 54)], t.screens[2].notice.stack.length)) =
      some (2, some true, 1) := by decide +kernel

/-- 05, the end of the crossfade to bank B. -/
theorem test_crossfadeEnd :
    (after (.crossfadeEnd 2) (engine2 fun e => { e with crossfade := some { incoming := .b, frame := 64 } })).map
      (fun t => t.screens[2].eng.active) = some .b := by decide +kernel

/-- A screen with one instance of LINK in a state. -/
def linkAlarm (a : Alarm) : State := monitor2 fun m => { m with alarms := m.alarms.set 51 a }

theorem test_qualifyWindowExpiry :
    (after (.qualifyWindowExpiry 2 51) (linkAlarm { state := .qualifying, count := 1, left := 1, clean := 0, hit := false })).map
      (fun t => t.screens[2].mon.alarms[(51 : Fin 54)].state) = some .clear := by decide +kernel

theorem test_releaseComplete :
    (after (.releaseComplete 2 51) (linkAlarm { state := .releasing, count := 0, left := 0, clean := 0, hit := false })).map
      (fun t => (t.screens[2].mon.alarms[(51 : Fin 54)].state, t.screens[2].mon.summary)) = some (.clear, none) := by decide +kernel

theorem test_holdoverExpiry :
    (after (.holdoverExpiry 0) (port0 fun x => { x with state := .holdover, holdoverLeft := 1 })).map
      (fun t => t.ports[0].state) = some .lost := by decide +kernel

theorem test_fastDropWindowClose :
    (after (.fastDropWindowClose 0) (port0 fun x => { x with window := some { count := 3, left := 1 } })).map
      (fun t => t.ports[0].window) = some none := by decide +kernel

theorem test_exchangeTimeout :
    (after (.exchangeTimeout 2) (screen2 fun x => { x with link := { x.link with link := .exchange, timer := 1 } })).map
      (fun t => (t.screens[2].link.link, t.screens[2].link.timeouts)) = some (.hunt, 1) := by decide +kernel

/-- A message under assembly at the second service tick after its START word. -/
def stale : State :=
  { port0 fun x => { x with assembly := some { words := [1], source := 0x34, ticks := 1 } } with blockCounter := 31 }

theorem test_serviceTimeout : (after (.serviceTimeout 0) stale).map (fun t =>
    (t.ports[0].lastTimedOut, t.ports[0].counters.discarded, t.ports[0].assembly)) = some (some 0x34, 1, none) := by decide +kernel

/-- A response at the fourth service tick after its placing. -/
def oldResponse : State :=
  { arb0 fun a => { a with queue := [{ words := [1], placedAt := 0, forReset := false }] } with blockCounter := 63 }

theorem test_responseExpiry : (after (.responseExpiry 0) oldResponse).map (fun t =>
    (t.arbiters[0].queue, t.arbiters[0].responsesExpired)) = some ([], 1) := by decide +kernel

theorem test_arbiterReload : (after (.arbiterReload 0) (arb0 fun a => { a with remainder := 1, respLeft := 0 })).map (fun t =>
    (t.arbiters[0].respLeft, t.arbiters[0].remainder)) = some (4, 16) := by decide +kernel

theorem test_quietIntervalEnd : (after (.quietIntervalEnd 2) (screen2 fun x => { x with quiet := some 1 })).map
    (fun t => t.screens[2].quiet) = some none := by decide +kernel

/-- 07: the pulse end 1,372,500 opens the line. -/
theorem test_contactPulseEnd :
    (after (.contactPulseEnd 3) { line3 fun x => { x with closed := true, pulseEnd := some 1372500 } with
      blockCounter := 1372499 }).map (fun t => t.lines[3].closed) = some false := by decide +kernel

theorem test_powerLoss : (after .powerLoss (line3 fun x => { x with closed := true })).map (fun t => t.relayClosed 3) =
    some false := by decide +kernel

/-! ### Requests on the part, its locks and its ports -/

theorem test_partStatus : (answer (after (.partStatus hp 0) part)).map (fun w => w.take 3) = some [0, 0, 0x0812] := by
  decide +kernel

theorem test_partReset : (after (.partReset hp) part).map (·.resetPending) = some (some { port := 0, due := false }) := by
  decide +kernel

/-- 10, the response to the lock request, word by word, but for its check. -/
theorem test_lockTake : (after (.lockTake h2) part).map (fun t =>
    (t.screenLocks[2], t.arbiters[0].queue.map fun r => r.words.dropLast)) =
      some (0x34, [[0x34C5, 0x8032, 0x0107, 0, 0x0034]]) := by decide +kernel

/-- 09: the server's forced release of a RUNNING screen's lock is refused, and of a DARK screen's lock is done. -/
theorem test_lockFree :
    answer (after (.lockFree { h2 with source := 0x21 } true) { inState .running with screenLocks := #v[0, 0, 0x34, 0, 0, 0, 0, 0] }) =
      some [4, 0x34] ∧
    answer (after (.lockFree { h2 with source := 0x21 } true) { part with screenLocks := #v[0, 0, 0x34, 0, 0, 0, 0, 0] }) =
      some [0, 0x34] := by decide +kernel

/-- R12 names "started" clear and then set, so that a clear flag is the word 0 (R193). -/
theorem test_portRead : (answer (after (.portRead hp 0 0) part)).map (fun w => (w.take 4, w[9]?)) = some ([0, 0, 1, 0], some 0) := by
  decide +kernel

theorem test_portSet : (after (.portSet hp 0 false 300 1 1 true) part).map (fun t =>
    (t.ports[0].state, t.ports[0].settings.holdover)) = some (.down, 250) := by decide +kernel

theorem test_portClear :
    (after (.portClear hp 0) (port0 fun x => { x with counters := { x.counters with slips := 9 } })).map
      (fun t => t.ports[0].counters.slips) = some 0 := by decide +kernel

theorem test_portRestart : (after (.portRestart hp 0) (port0 fun x => { x with state := .locked })).map
    (fun t => t.ports[0].state) = some .hunt := by decide +kernel

theorem test_unknownRequest : answer (after (.unknownRequest h2 40 false) part) = some [6] := by decide +kernel

/-! ### Requests on screens, formats and the filter engine -/

theorem test_screenRead : (answer (after (.screenRead h2 0) part)).map (fun w => w.take 3) = some [0, 2, 0] := by
  decide +kernel

theorem test_screenSet : (after (.screenSet h2 [.primary (some 3), .alternate (some 7), .meterSpeed 9]) part).map (fun t =>
    (t.screens[2].ctx.primary, t.screens[2].ctx.alternate, t.screens[2].ctx.meterSpeed)) = some (some 3, some 7, 8) := by
  decide +kernel

theorem test_screenState :
    (after (.screenState h2 .running) (screen2 fun x => { x with ctx := { x.ctx with primary := some 3 } })).map (fun t =>
      (t.screens[2].ctx.state, t.screens[2].ctx.active)) = some (.running, .primary) := by decide +kernel

/-- 05: SCREEN-STATE DARK takes the fader to 0 and ends a fade. -/
theorem test_screenState_dark :
    (after (.screenState h2 .dark) ((engine2 fun e => { e with fader := 14336, fade := some { target := 16384, step := 683 } }).modCtx 2
      fun c => { c with state := .running })).map (fun t => (t.screens[2].eng.fader, t.screens[2].eng.fade)) =
      some (0, none) := by decide +kernel

/-- 03: SCREEN-SOURCE PRIMARY becomes the requested source. -/
theorem test_screenSource :
    (after (.screenSource h2 .primary) ((inState .running).modCtx 2 fun c => { c with primary := some 3 })).map
      (fun t => t.screens[2].ctx.requested) = some (some .primary) := by decide +kernel

theorem test_screenReset : (after (.screenReset h2) (inState .running)).map (fun t => t.screens[2].ctx.state) = some .dark := by
  decide +kernel

theorem test_formatLoadBegin : answer (after (.formatLoadBegin hp { tag := 3, inputs := 1, steering := none, roles := [.c] }) part) =
    some [4] := by decide +kernel

/-- The part with a staging record of node 0x34 for tag 16: one row of C. -/
def staged (a : Option (Vector Int 16)) : State :=
  { part with staging := some { tag := 16, owner := 0x34, inputs := 1, steering := none
                                rows := [{ role := .c, a := a, b := none }] } }

theorem test_formatLoadRows : (after (.formatLoadRows hp 16 0 .a [16384]) (staged none)).map
    (fun t => t.staging.map fun g => g.rows.map fun r => r.a.map fun v => v.toList.take 2) =
      some (some [some [16384, 0]]) := by decide +kernel

theorem test_formatLoadCommit : (after (.formatLoadCommit hp 16) (staged (some (Vector.replicate 16 0)))).map
    (fun t => (t.validTag 16, t.staging.isSome)) = some (true, false) := by decide +kernel

theorem test_formatLoadClear :
    (after (.formatLoadClear hp 16) { part with loaded := part.loaded.set 0 (some formatMono) }).map (fun t => t.validTag 16) =
      some false := by decide +kernel

theorem test_formatRead : (answer (after (.formatRead hp (.tag 1 none) 0) part)).map (fun w => w.take 3) = some [0, 0, 0] := by
  decide +kernel

/-- 05: HEAD for bank B, channel 0, of 4 sections and delay 480 raises the totals by 4 and 480. -/
theorem test_eqLoadHead : (after (.eqLoadHead h2 .b 0 4 480 12800) part).map (fun t => (t.sectionTotal, t.poolTotal)) =
    some (4, 480) := by decide +kernel

/-- 05: HEAD for the active bank of a screen that is not DARK is refused. -/
theorem test_eqLoadHead_refused : answer (after (.eqLoadHead h2 .a 0 2 0 16384) (inState .running)) = some [4] := by
  decide +kernel

/-- The part with one section in bank B, channel 0, of screen 2. -/
def oneSection : State := engine2 fun e =>
  { e with bankB := e.bankB.set 0 { sections := [{ coefs := { b0 := 1048576, b1 := 0, b2 := 0, a1 := 0, a2 := 0 }
                                                   x1 := 3, x2 := 3, y1 := 3, y2 := 3 }], delay := 0, trim := 16384 } }

theorem test_eqLoadSections :
    (after (.eqLoadSections h2 .b 0 0 [{ b0 := 524288, b1 := 0, b2 := 0, a1 := -262144, a2 := 0 }]) oneSection).map
      (fun t => t.screens[2].eng.bankB[0].sections.map fun x => (x.coefs.b0, x.y1)) = some [(524288, 0)] := by decide +kernel

theorem test_eqRead : answer (after (.eqRead hp .part 0) oneSection) = 
    some [0, 0, 1, 0, 0, 0, 0, 1, 0, 0, 0, 0, 0, 0, 0] := by decide +kernel

theorem test_eqSelect : (after (.eqSelect h2 .b) part).map (fun t => t.screens[2].eng.pendingSwitch) = some (some .b) := by
  decide +kernel

/-- 05, the two fades: the steps 2,731 and 683. -/
theorem test_fade :
    (after (.fade h2 8192 3) (engine2 fun e => { e with fader := 16384 })).map (fun t => t.screens[2].eng.fade) =
      some (some { target := 8192, step := 2731 }) ∧
    (after (.fade h2 16384 4) (engine2 fun e => { e with fader := 13653 })).map (fun t => t.screens[2].eng.fade) =
      some (some { target := 16384, step := 683 }) := by decide +kernel

theorem test_mute : (after (.mute h2 true) part).map (fun t => t.screens[2].eng.mute) = some true := by decide +kernel

/-! ### Requests on meters, alarms, cues, contact lines and notices -/

theorem test_meterRead : (answer (after (.meterRead h2 0) part)).map (fun w => w.take 3) = some [0, 1, 4] := by decide +kernel

theorem test_alarmSet :
    (after (.alarmSet h2 .over { enable := true, level := 1, threshold := 9000000, count := 0, window := 5, release := 2
                                 quiet := false }) part).map (fun t =>
      (t.screens[2].mon.table[1].threshold, t.screens[2].mon.table[1].count)) = some (some 8388607, 1) := by decide +kernel

theorem test_alarmRead : answer (after (.alarmRead h2 (some 54) 0) part) = some [2] := by decide +kernel

/-- 06: ALARM-ACK 18 takes alarm 18 from the pending set. -/
theorem test_alarmAck :
    (after (.alarmAck h2 [18]) (monitor2 fun m => { m with pending := m.pending.set 18 (some true) })).map
      (fun t => t.screens[2].mon.pending[(18 : Fin 54)]) = some none := by decide +kernel

theorem test_alarmTest : (after (.alarmTest h2 [53]) part).map (fun t => t.screens[2].mon.pending[(53 : Fin 54)]) =
    some (some false) := by decide +kernel

/-- 07, cue 12: FADE to 16,384 over 3,000 ms at 61,500. -/
def cue12 : CueOperand :=
  { id := 12, program := 7700001, trigger := 61500, action := .fade 16384 3000, catchUp := true, fireIfDue := false }

/-- Cue 12 as a record of a list. -/
def cue12Record : Cue :=
  { record := 0, id := 12, program := 7700001, trigger := 61500, action := .fade 16384 3000, catchUp := true
    state := .armed, outcome := none, loadDue := false }

/-- The part with cue 12 in screen 2's list. -/
def listed : State := { screen2 fun x => { x with cues := [cue12Record] } with freeStack := (List.range 512).tail }

theorem test_cueLoad : (after (.cueLoad h2 cue12) part).map (fun t => (t.screens[2].cues, t.freeStack.length)) =
    some ([cue12Record], 511) := by decide +kernel

theorem test_cueDelete : (after (.cueDelete h2 .all) listed).map (fun t => (t.screens[2].cues, t.freeStack.take 2)) =
    some ([], [0, 1]) := by decide +kernel

theorem test_cueRead : answer (after (.cueRead h2 (.cue 13) 0) listed) = some [4] := by decide +kernel

/-- 07: cue 12 fired starts the fade with step ceil(16,384 / 3,000) from level 0, which is 6. -/
theorem test_cueFire : (after (.cueFire h2 12) listed).map (fun t => (t.screens[2].eng.fade, t.screens[2].cues.map (·.state))) =
    some (some { target := 16384, step := 6 }, [.fired]) := by decide +kernel

theorem test_cueRearm :
    (after (.cueRearm h2 (.ids [12])) (listed.modCues 2 fun l => l.map fun c => { c with state := .missed })).map
      (fun t => t.screens[2].cues.map (·.state)) = some [.armed] := by decide +kernel

theorem test_contactSet : (after (.contactSet hp 3 (some 2) .cue 0) part).map (fun t => t.lines[3].owner) = some (some 2) := by
  decide +kernel

/-- 07: a pulse of 500 ms at block counter 1,372,000 ends at 1,372,500. -/
theorem test_contactDrive :
    (after (.contactDrive h2 3 (.pulse 500)) { line3 fun x => { x with owner := some 2 } with blockCounter := 1372000 }).map
      (fun t => (t.lines[3].closed, t.lines[3].pulseEnd)) = some (true, some 1372500) := by decide +kernel

/-- 08: NOTICE-DONE of the clip entry opens the ceiling again. -/
def nested : State := screen2 fun x =>
  { x with notice := { x.notice with ceiling := 2, stack := [{ saved := 4, source := .alarm 5, level := 2, tag := 1 }] } }

theorem test_noticeDone :
    (after (.noticeDone h2 (some 1)) nested).map (fun t => t.screens[2].notice.ceiling) = some 4 ∧
    answer (after (.noticeDone h2 (some 3)) nested) = some [4] := by decide +kernel

theorem test_noticeRead : answer (after (.noticeRead hp (.port 12) 0) part) = some [2] := by decide +kernel

theorem test_noticeRouteScreen :
    (after (.noticeRouteScreen h2 (some { port := 0, node := 0x21, share := none })) part).map (fun t => t.screens[2].ctx.route) =
      some (some { port := 0, node := 0x21, count := 1, weight := 1 }) := by decide +kernel

theorem test_noticeRoutePort : (after (.noticeRoutePort hp 0 5 3 20) part).map (fun t =>
    (t.arbiters[0].nextInterval, t.arbiters[0].respCount, t.arbiters[0].respWeight)) = some (20, 5, 3) := by decide +kernel

/-! ### The step -/

/-- A step takes the command at the front of the queue. -/
theorem test_step :
    (match step (part.withCommand (.lockTake h2)) with
      | .next t => some (t.screenLocks[2], t.pending)
      | .fault _ | .refused _ => none) = some (0x34, []) := by decide +kernel

/-! ### A state that meets the hypotheses of each statement -/

/-- Holders of the screen locks: node 0x21 holds those of screens 0 and 7, node 0x34 that of screen 2, and 1 is free. -/
def locks : Vector Byte 8 := #v[0x21, 0, 0x34, 0, 0, 0, 0, 0x21]

/-- The part with those locks, and the part lock with node 0x21. -/
def lockedPart : State := { part with screenLocks := locks, partLock := 0x21 }

/-- `UnderScreenLock`: a taken request with screen number 15, one whose screen's lock another node holds, at both ends of the range,
and one whose lock is free or the source node's own. -/
theorem witness_UnderScreenLock :
    lockedPart.takes hp ∧ lockedPart.takes (head 0) ∧ lockedPart.takes (head 7) ∧ hp.screen = 15 ∧
    (head 0).screen.toNat = (0 : Fin 8).val ∧ heldByAnother lockedPart.screenLocks[0] (head 0).source ∧
    (head 7).screen.toNat = (7 : Fin 8).val ∧ heldByAnother lockedPart.screenLocks[7] (head 7).source ∧
    ¬heldByAnother lockedPart.screenLocks[1] (head 1).source ∧ ¬heldByAnother lockedPart.screenLocks[2] (head 2).source ∧
    part.takes (head 0) ∧ ¬heldByAnother part.screenLocks[0] (head 0).source ∧
    part.takes (head 7) ∧ ¬heldByAnother part.screenLocks[7] (head 7).source := by
  simp only [State.takes, heldByAnother]; decide +kernel

/-- `UnderPartLock`: a taken request with a screen's number, one with 15 while another node holds the part lock, and one with 15
while it is free. -/
theorem witness_UnderPartLock :
    lockedPart.takes (head 7) ∧ (head 7).screen.toNat < 8 ∧ lockedPart.takes hp ∧ hp.screen = 15 ∧
    heldByAnother lockedPart.partLock hp.source ∧ part.takes hp ∧ ¬heldByAnother part.partLock hp.source := by
  simp only [State.takes, heldByAnother]; decide +kernel

theorem witness_StepRunsTheFrontCommand : State.reset.pending = [] := by decide

theorem witness_DuePartResetTakesEffect :
    let due : State := { part with resetPending := some { port := 0, due := true } }
    let waiting : State := { part with resetPending := some { port := 11, due := false } }
    due.powered = true ∧ (∃ r, due.resetPending = some r ∧ r.due = true) ∧ waiting.powered = true ∧
    (∃ r, waiting.resetPending = some r ∧ r.due = false) ∧ part.resetPending = none :=
  ⟨rfl, ⟨_, rfl, rfl⟩, rfl, ⟨_, rfl, rfl⟩, rfl⟩

theorem witness_PowerLossOpensEveryRelay :
    ({ part with powered := false } : State).powered = false ∧ (∀ straps, Instr.masterFrame ≠ .powerOn straps) ∧
    Instr.masterFrame ≠ .powerLoss := ⟨rfl, (by intro _ h; cases h), (by intro h; cases h)⟩

theorem witness_EveryCommandKeepsTheWaitingQueue : exec .powerLoss part = .next part.losePower := rfl

/-- A full response queue at P0. -/
def fullQueue : State := arb0 fun a => { a with queue := List.replicate 4 { words := [1], placedAt := 0, forReset := false } }

theorem witness_RequestsAreCheckedBeforeTheirBlock :
    requestOf (.mute h2 true) = some (h2, .mute) ∧ fullQueue.powered = true ∧ 4 ≤ fullQueue.arbiters[h2.port].queue.length ∧
    ({ part with resetPending := some { port := 0, due := false } } : State).resetPending ≠ none ∧
    part.takes (head 8) ∧ 8 ≤ (head 8).screen.toNat ∧ (head 14).screen.toNat ≤ 14 ∧
    ReqKind.partStatus.takesScreen = false ∧ ReqKind.mute.takesPart = false ∧
    ReqKind.mute.takesScreen = true ∧ ReqKind.mute.cls = .screen ∧ heldByAnother lockedPart.screenLocks[7] 0x34 ∧
    ReqKind.portSet.takesPart = true ∧ ReqKind.portSet.cls = .part ∧ ReqKind.noticeRouteScreen.takesScreen = true ∧
    ReqKind.noticeRouteScreen.cls = .part ∧ ReqKind.partReset.cls = .reset ∧ heldByAnother lockedPart.partLock 0x34 := by
  simp only [State.takes, heldByAnother]; decide +kernel

theorem witness_PartResetPendsAndUnknownRequestsAreRefused :
    part.powered = true ∧ part.takes h2 ∧ 4 ≤ fullQueue.arbiters[h2.port].queue.length := by
  simp only [State.takes]; decide +kernel

theorem witness_Locks :
    lockedPart.takes hp ∧ ({ hp with source := 0 } : ReqHead).source = 0 ∧ heldByAnother lockedPart.screenLocks[0] 0x34 ∧
    (0x34 : Byte) ≠ 0 ∧ ¬heldByAnother lockedPart.screenLocks[2] 0x34 ∧ heldByAnother lockedPart.partLock 0x34 ∧
    ¬heldByAnother part.partLock 0x34 ∧ (inState .running).screens[2].ctx.state ≠ .dark ∧
    (∃ n : Fin 8, (inState .running).screens[n].ctx.state ≠ .dark) ∧ ∀ n : Fin 8, lockedPart.screens[n].ctx.state = .dark := by
  simp only [State.takes, heldByAnother]; decide +kernel

theorem witness_ReadingRequests :
    part.takes hp ∧ part.takes h2 ∧ part.takes (head 7) ∧ hp.screen = 15 ∧ h2.screen.toNat = (2 : Fin 8).val ∧
    part.format? 16 = none ∧ (part.format? 1).isSome = true ∧ (formatMono.rows[0]?).isSome = true ∧
    formatMono.rows.length ≤ 1 ∧ formatMono.steering = none ∧
    (part.format? 5).isSome = true ∧ formatMatrixTwo.steering.isSome = true ∧
    (oneSection.screens[2].eng.bank .b)[0].sections.length = 1 ∧ (oneSection.screens[2].eng.bank .a)[0].sections = [] ∧
    (∀ c ∈ listed.screens[2].cues, c.id ≠ 13) ∧ cue12Record ∈ listed.screens[2].cues ∧ cue12Record.id ≠ 0 ∧
    CueListSafe listed.screens[2].cues := by
  simp only [State.takes, CueListSafe]; decide +kernel

theorem witness_PortSetAndRestartGovernThePort_set :
    (1 ≤ 255 ∧ 255 ≤ 255) ∧ ¬(1 ≤ (0 : Nat)) ∧ part.ports[0].state ≠ .down ∧
    (port0 fun x => { x with state := .down }).ports[0].state = .down ∧
    (port0 fun x => { x with state := .locked, assembly := some { words := [1], source := 2, ticks := 0 } }).ports[0].assembly ≠
      none := by decide +kernel

theorem witness_PortSetAndRestartGovernThePort_restart :
    (port0 fun x => { x with state := .down }).ports[0].state = .down ∧
    (port0 fun x => { x with state := .locked }).ports[0].state = .locked := by decide +kernel

theorem witness_ScreenSetWritesTheItemsCarried :
    let items : List ScreenItem := [.primary (some 0), .alternate (some 11), .fallback 6, .meterSpeed 9, .window 10001,
      .follow true, .foldEnable true, .override (some 6),
      .mapEntry 15 { role := some .ls, expected := true, partner := some 0, gain := 11585 }]
    items.Pairwise (fun x y => ¬SameItem x y) ∧ (∀ i ∈ items, ItemInRange part i) ∧
    (¬∃ p, portAfter pickPrimary items none = some p ∧ portAfter pickAlternate items none = some p) ∧
    (∃ p, portAfter pickPrimary [.primary (some 3), .alternate (some 3)] none = some p ∧
      portAfter pickAlternate [.primary (some 3), .alternate (some 3)] none = some p) ∧
    ¬[ScreenItem.follow true, .follow false].Pairwise (fun x y => ¬SameItem x y) ∧ ¬ItemInRange part (.fallback 7) := by
  refine ⟨by simp [SameItem], ?_, ?_, ⟨3, by decide, by decide⟩, by simp [SameItem], by simp [ItemInRange]⟩
  · have : part.validTag 6 = true := by decide
    simp [ItemInRange, this]
  · rintro ⟨p, h1, h2⟩
    simp only [portAfter, pickPrimary, pickAlternate, List.findSome?] at h1 h2
    cases h1
    cases h2

theorem witness_ScreenStateEntersTheNamedState :
    part.screens[2].ctx.state = .dark ∧ (inState .standby).screens[2].ctx.state = .standby ∧
    (inState .running).screens[2].ctx.state = .running := by decide +kernel

theorem witness_ScreenSourceBecomesTheRequestedSource :
    part.screens[2].ctx.state = .dark ∧
    ((inState .running).modCtx 2 fun c => { c with primary := some 3 }).screens[2].ctx.state ≠ .dark ∧
    ((inState .running).modCtx 2 fun c => { c with primary := some 3 }).screens[2].ctx.primary ≠ none ∧
    (inState .running).screens[2].ctx.alternate = none := by decide +kernel

/-- Header operands for tag 31 with steering at the ends of its ranges. -/
def steeredHeader (tag : Nat) : FormatHeader :=
  { tag, inputs := 2, steering := some { first := 0, second := 1, shift := 12, slew := 64 }, roles := [.l, .c, .r] }

/-- `FormatLoadsFillTheStaging`, at a BEGIN. -/
theorem witness_FormatLoadsFillTheStaging_begin :
    HeaderInRange (steeredHeader 16) ∧ HeaderInRange (steeredHeader 31) ∧ HeaderInRange (steeredHeader 6) ∧
    ¬HeaderInRange { tag := 16, inputs := 17, steering := none, roles := [.c] } ∧ (steeredHeader 32).tag = 32 := by
  have h (t : Nat) : HeaderInRange (steeredHeader t) :=
    ⟨by simp [steeredHeader], by simp [steeredHeader], by simp [steeredHeader], by simp [steeredHeader], by simp [steeredHeader],
      fun st e => by cases e; simp [SteeringInRange, steeredHeader]⟩
  exact ⟨h 16, h 31, h 6, fun q => absurd q.2.1 (by decide), rfl⟩

/-- `FormatLoadsFillTheStaging`, at a ROWS. -/
theorem witness_FormatLoadsFillTheStaging_rows :
    let g : Staging := { tag := 16, owner := 0x34, inputs := 2, steering := some { first := 0, second := 1, shift := 9, slew := 8 }
                         rows := [{ role := .c, a := none, b := none }] }
    (staged none).staging.map (fun g => (g.owner, g.tag, g.steering, g.rows.length)) = some (0x34, 16, none, 1) ∧
    g.owner = hp.source ∧ g.steering ≠ none ∧ (g.rows[0]?).isSome = true ∧ (List.replicate 16 (1 : Int)).length ≤ 16 ∧
    (List.replicate 17 (1 : Int)).length = 17 ∧ part.staging = none := by decide +kernel

theorem witness_FormatCommitAndClearReplaceTheEntry :
    (∃ g, (staged (some (Vector.replicate 16 0))).staging = some g ∧ g.owner = hp.source ∧ g.tag = 16 + (0 : Fin 16).val ∧
      ∀ r ∈ g.rows, r.a.isSome = true ∧ (g.steering.isSome = true → r.b.isSome = true)) ∧
    (∃ g, (staged none).staging = some g ∧ ¬∀ r ∈ g.rows, r.a.isSome = true) ∧ part.loaded[15] = none ∧
    ({ part with loaded := part.loaded.set 15 (some formatMono) } : State).loaded[15].isSome = true := by
  refine ⟨⟨_, rfl, rfl, rfl, by decide +kernel⟩, ⟨_, rfl, by decide +kernel⟩, by decide +kernel, by decide +kernel⟩

/-- A screen whose sixteen channels take the whole pool and section budget of the part with delays and sections in both banks. -/
def fullBudget : State :=
  let chain : Chain := { sections := List.replicate 64 { coefs := { b0 := 0, b1 := 0, b2 := 0, a1 := 0, a2 := 0 }
                                                         x1 := 0, x2 := 0, y1 := 0, y2 := 0 }, delay := 4096, trim := 0 }
  engine2 fun e => { e with bankA := Vector.replicate 16 chain, bankB := Vector.replicate 16 chain }

/-- `EqLoadsWriteTheRecord`, at a HEAD. -/
theorem witness_EqLoadsWriteTheRecord_head :
    ¬LoadBarred part.screens[2] .a ∧ LoadBarred (inState .running).screens[2] .a ∧ ¬LoadBarred (inState .running).screens[2] .b ∧
    fullBudget.sectionTotal = 2048 ∧ fullBudget.poolTotal = 65536 ∧ part.sectionTotal + 12 ≤ 2048 ∧
    part.poolTotal + 4800 ≤ 65536 := by
  simp only [LoadBarred]; decide +kernel

/-- `EqLoadsWriteTheRecord`, at a SECTIONS. -/
theorem witness_EqLoadsWriteTheRecord_sections :
    (oneSection.screens[2].eng.bank .b)[0].sections.length = 1 ∧ ¬LoadBarred oneSection.screens[2] .b ∧
    LoadBarred (oneSection.modEng 2 fun e => { e with pendingSwitch := some .b }).screens[2] .b := by
  simp only [LoadBarred]; decide +kernel

theorem witness_AlarmLists :
    (∀ id ∈ [0, 53], id ≤ 53) ∧ (List.range 54).length = 54 ∧ (∀ id ∈ List.range 54, id ≤ 53) ∧ (∃ id ∈ [54], 54 ≤ id) ∧
    (List.replicate 55 0).length = 55 := by decide

theorem witness_CueLoadPlacesTheCue :
    cue12.id ≠ 0 ∧ ActionInRange cue12.action ∧ CueListSafe part.screens[2].cues ∧ CueListSafe listed.screens[2].cues ∧
    part.freeStack = 0 :: (List.range 512).tail ∧ cue12Record ∈ listed.screens[2].cues ∧ cue12Record.id = cue12.id ∧
    (∀ c ∈ part.screens[2].cues, c.id ≠ cue12.id) ∧ ({ part with freeStack := [] } : State).freeStack = [] ∧
    ¬ActionInRange (.contact 16 .closeLine) ∧ ActionInRange (.contact 15 (.pulse 10000)) ∧ ActionInRange (.format (some 31)) ∧
    ActionInRange (.quiet 3600000) ∧ ActionInRange (.mark 3) := by
  simp only [ActionInRange, CueListSafe, cue12]; decide +kernel

theorem witness_AlreadyDue :
    AlreadyDue ((inState .running).modCtx 2 fun c => { c with lastProgram := some 7700001, lastPosition := some 61500 }).screens[2]
      cue12.program cue12.trigger ∧ ¬AlreadyDue part.screens[2] cue12.program cue12.trigger := by
  refine ⟨⟨by decide +kernel, 7700001, 61500, by decide +kernel, by decide +kernel, .inr rfl, by decide⟩, fun h => ?_⟩
  exact absurd h.1 (by decide +kernel)

theorem witness_CueDeleteAndRearmActOnTheListedCues :
    CueListSafe listed.screens[2].cues ∧ SelectionInRange (.ids [12]) ∧ SelectionInRange (.ids (List.replicate 16 12)) ∧
    ¬SelectionInRange (.ids []) ∧ ¬SelectionInRange (.ids (List.replicate 17 12)) ∧ ¬SelectionInRange (.ids [0]) ∧
    SelectionInRange .all := by
  simp only [SelectionInRange, CueListSafe]; decide +kernel

/-- The part with a CONTACT cue on line 3 in screen 2's list, and that line in the state given. -/
def contactCue (owner : Option (Fin 8)) : State :=
  { listed.modCues 2 fun l => l.map fun c => { c with action := .contact 3 .closeLine } with
    lines := part.lines.set 3 { linePowerOn with owner := owner } }

theorem witness_CueFireAppliesOrDeclines :
    CueListSafe listed.screens[2].cues ∧ cue12Record ∈ listed.screens[2].cues ∧ ¬Declines listed 2 cue12Record.action ∧
    Declines (contactCue none) 2 (.contact 3 .closeLine) ∧ ¬Declines (contactCue (some 2)) 2 (.contact 3 .closeLine) ∧
    Declines part 2 (.contact 16 .closeLine) ∧ Declines part 2 (.format (some 31)) ∧ ¬Declines part 2 (.format (some 6)) ∧
    Declines part 2 (.source .primary) ∧ Declines part 2 (.quiet 5000) ∧ ¬Declines (inState .running) 2 (.quiet 5000) := by
  simp only [CueListSafe, Declines, cue12Record]; decide +kernel

theorem witness_ContactRequestsSetAndDriveTheLine :
    (contactCue (some 2)).lines[3].owner = some 2 ∧ (contactCue (some 2)).lines[3].mode = .cue ∧
    (contactCue none).lines[3].owner ≠ some 2 ∧ (¬∃ ms, Drive.pulse 10000 = .pulse ms ∧ (ms = 0 ∨ 10001 ≤ ms)) ∧
    (∃ ms, Drive.pulse 10001 = .pulse ms ∧ (ms = 0 ∨ 10001 ≤ ms)) := by
  refine ⟨by decide +kernel, by decide +kernel, by decide +kernel, ?_, ⟨10001, rfl, by omega⟩⟩
  rintro ⟨ms, h, h2⟩
  cases h
  omega

theorem witness_NoticeDoneRestoresTheCeiling :
    part.screens[2].notice.stack = [] ∧ (∃ e rest, nested.screens[2].notice.stack = e :: rest ∧ e.tag = 1) ∧
    (∃ w, (some 3 : Option Word) = some w ∧ w ≠ 1) := ⟨by decide +kernel, ⟨{ saved := 4, source := .alarm 5, level := 2, tag := 1 }, [],
    by decide +kernel, rfl⟩, 3, rfl, by decide⟩

/-- The port form's hypotheses are `witness_UnderPartLock`'s. -/
theorem witness_NoticeRoutesAreReplacedAndStored :
    part.takes h2 ∧ part.takes (head 7) ∧ heldByAnother lockedPart.partLock h2.source ∧ ¬heldByAnother part.partLock h2.source ∧
    part.screens[2].ctx.route = none ∧ clipPending.screens[2].ctx.route.isSome = true := by
  simp only [State.takes, heldByAnother]; decide +kernel

/-! ### Hypotheses of the statements on frames and boundaries -/

/-- P0 with the third good frame behind it, in a state. -/
def fourth (st : PortState) : State := port0 fun x => { x with state := st, goodRun := 3, expected := some 47 }

theorem witness_SeekingPortsCountTheirRuns :
    (fourth .hunt).ports[0].state = .hunt ∧ (fourth .lost).ports[0].state = .lost ∧ (fourth .holdover).ports[0].state = .holdover ∧
    (fourth .brk).ports[0].state = .brk ∧ (fourth .down).ports[0].state = .down ∧ GoodFrame (goodForward 47) 47 ∧
    GoodFrame (goodForward 0) 0 ∧ headerCode (goodForward 47).header = .idle ∧ (fourth .hunt).ports[0].expected = some 47 ∧
    (fourth .hunt).ports[0].goodRun = 3 ∧ part.ports[0].expected = none ∧ part.ports[0].goodRun = 0 ∧
    (fourth .holdover).ports[0].assembly = none ∧ GoodFrame (goodForward 48) 48 ∧ MissFrame missForward ∧
    BadCheckFrame (badForward 47) ∧ StopFrame (stopForward 0) ∧ headerCode (stopForward 0).header = .idle ∧
    (port0 fun x => { x with stopRun := 6 }).ports[0].stopRun = 6 ∧ (port0 fun x => { x with stopRun := 7 }).ports[0].stopRun = 7 := by
  simp only [GoodFrame, MissFrame, BadCheckFrame, StopFrame]; decide +kernel

/-- P0 LOCKED, expecting index 12, with a number of entries in its buffer and no message under assembly. -/
def filling (entries : Nat) (misses : Nat) : State := port0 fun x =>
  { x with state := .locked, expected := some 12, buffer := List.replicate entries silence, missRun := misses }

theorem witness_LockedFramesFillTheBuffer :
    (filling 31 0).ports[0].state = .locked ∧ (filling 31 0).ports[0].expected = some 12 ∧ GoodFrame (goodForward 12) 12 ∧
    headerCode (goodForward 12).header = .idle ∧ (filling 31 0).ports[0].buffer.length = 31 ∧
    (filling 32 0).ports[0].buffer.length = 32 ∧
    BadCheckFrame (badForward 12) ∧ (filling 31 0).ports[0].assembly = none ∧ 1 < (filling 31 0).ports[0].settings.dropCount ∧
    (filling 31 0).ports[0].window = none ∧ StopFrame (stopForward 12) ∧ headerCode (stopForward 12).header = .idle ∧
    (port0 fun x => { x with stopRun := 6 }).ports[0].stopRun = 6 := by
  simp only [GoodFrame, BadCheckFrame, StopFrame]; decide +kernel

/-- P0 LOCKED before index `e`, with a descriptor attempt and a full buffer. -/
def reading (e : Nat) (attempt : Option (List (Option Byte))) : State :=
  (filling 32 0).modPort 0 fun x => { x with expected := some e, attempt := attempt }

/-- `LockedFramesFillTheBuffer`, where an attempt begins, where it takes its eleventh byte, and at index 11 without one. -/
theorem witness_LockedFramesFillTheBuffer_attempt :
    (reading 0 none).ports[0].state = .locked ∧ (reading 0 none).ports[0].expected = some 0 ∧
    (reading 10 (some (List.replicate 10 none))).ports[0].expected = some 10 ∧ (reading 11 none).ports[0].attempt = none ∧
    (reading 0 none).ports[0].buffer.length = 32 ∧ GoodFrame (goodForward 0) 0 ∧ GoodFrame (goodForward 10) 10 ∧
    BadCheckFrame (badForward 0) ∧ (reading 0 none).ports[0].assembly = none ∧
    (reading 0 none).ports[0].settings.dropEnable = true ∧
    (widened (reading 0 none).ports[0]).count < (reading 0 none).ports[0].settings.dropCount ∧
    StopFrame (stopForward 10) ∧ (reading 10 none).ports[0].stopRun ≤ 6 := by
  simp only [GoodFrame, BadCheckFrame, StopFrame]; decide +kernel

/-- `MissesFastDropsAndStopsLeaveLocked`, where an attempt takes a missed byte, and where none is under way. -/
theorem witness_MissesFastDropsAndStopsLeaveLocked_attempt :
    (reading 10 (some (List.replicate 10 none))).ports[0].expected = some 10 ∧ MissFrame missForward ∧
    (reading 10 none).ports[0].missRun ≤ 1 ∧ (reading 11 none).ports[0].attempt = none ∧ GoodFrame (goodForward 30) 30 ∧
    (reading 1 none).ports[0].expected = some 1 ∧ (reading 1 none).ports[0].attempt = none ∧
    (reading 1 none).ports[0].assembly = none := by
  simp only [GoodFrame, MissFrame]; decide +kernel

theorem witness_MissesFastDropsAndStopsLeaveLocked :
    (filling 0 2).ports[0].state = .locked ∧ (filling 0 2).ports[0].expected = some 12 ∧ (filling 0 2).ports[0].assembly = none ∧
    MissFrame missForward ∧ (filling 0 2).ports[0].missRun = 2 ∧ (filling 0 1).ports[0].missRun = 1 ∧
    GoodFrame (goodForward 47) 47 ∧ BadCheckFrame (badForward 12) ∧ (filling 0 2).ports[0].settings.dropEnable = true ∧
    ((filling 0 2).modPort 0 fun x => { x with window := some { count := 31, left := 1 } }).ports[0].settings.dropCount = 32 ∧
    (filling 0 2).ports[0].settings.holdover ≠ 0 ∧
    ((filling 0 2).modPort 0 fun x => { x with settings := { x.settings with holdover := 0 } }).ports[0].settings.holdover = 0 ∧
    StopFrame (stopForward 12) ∧ ((filling 0 2).modPort 0 fun x => { x with stopRun := 7 }).ports[0].stopRun = 7 := by
  simp only [GoodFrame, MissFrame, BadCheckFrame, StopFrame]; decide +kernel

/-- R5 and R21: a CHECK ERROR in HOLDOVER is counted and captured, and ends the good-frame run. R11: a write to a full buffer
drops the oldest entry and counts one slip. R3 and R9: the check error that makes a fast drop ends the sync-miss run. R3 and R6:
the eighth STOP frame in a row enters BREAK with the sync-miss run ended. -/
theorem test_frameErrors :
    ((after (.programFrameArrival 0 (badForward 47)) (fourth .holdover)).map (fun t =>
      (t.ports[0].goodRun, t.ports[0].counters.checkErrors, t.ports[0].capture.map fun c => c.index)) =
      some (0, 1, some (some 47))) ∧
    ((after (.programFrameArrival 0 (goodForward 12)) (filling 32 0)).map (fun t =>
    (t.ports[0].buffer.length, t.ports[0].counters.slips)) = some (32, 1)) ∧
    ((after (.programFrameArrival 0 (badForward 12))
      ((filling 0 2).modPort 0 fun x => { x with window := some { count := 31, left := 1 } })).map (fun t =>
      (t.ports[0].state, t.ports[0].missRun, t.ports[0].counters.fastDrops)) = some (.lost, 0, 1)) ∧
    ((after (.programFrameArrival 0 (stopForward 12)) ((filling 0 2).modPort 0 fun x => { x with stopRun := 7 })).map (fun t =>
      (t.ports[0].state, t.ports[0].missRun, t.ports[0].counters.stopEntries)) = some (.brk, 0, 1)) := by
  decide +kernel

/-- The first eleven bytes of a descriptor of program 7,700,001 at 61,501, tag 4, PLAY and POSITION-VALID, and its last byte. -/
def descriptor : List Byte :=
  let ten : List Byte := [0x00, 0x75, 0x7E, 0x21, 0x00, 0x00, 0xF0, 0x3D, 0x04, 0xC0]
  let check := crc16 (ten.flatMap bitsOf)
  ten ++ [check.extractLsb' 8 8, check.extractLsb' 0 8]

/-- What that descriptor carries. -/
def carried : Update := { program := 7700001, position := 61501, tag := 4, play := true, posValid := true, inferred := false }

/-- Screen 2 RUNNING on P0 at 61,500 with cue 12 listed, and P0 one byte from the end of that descriptor. -/
def following : State :=
  (listed.modScreen 2 fun x => { x with ctx := { x.ctx with state := .running, follow := true, primary := some 0, active := .primary
                                                            activePort := some 0, lastProgram := some 7700001
                                                            lastPosition := some 61500 } }).modPort 0 fun x =>
    { x with state := .locked, expected := some 11, attempt := some ((descriptor.take 11).map some) }

/-- The frame with the last byte of that descriptor. -/
def lastByte : LinkFrame 16 := good 11 .idle (descriptor.getLastD 0) (Vector.replicate 16 5) 0

theorem witness_PositionUpdateFiresTheDueCues :
    following.ports[0].state = .locked ∧ following.ports[0].expected = some 11 ∧ GoodFrame lastByte 11 ∧
    headerCode lastByte.header = .idle ∧ following.ports[0].buffer.length ≤ 31 ∧ (descriptor.take 11).length = 11 ∧
    following.ports[0].attempt = some ((descriptor.take 11).map some) ∧
    parseDescriptor (descriptor.take 11 ++ [headerByte lastByte.header]) = some carried ∧ carried.posValid = true ∧
    (∀ m : Fin 8, following.screens[m].ctx.activePort = some 0 ↔ m = 2) ∧ following.screens[2].ctx.state = .running ∧
    (following.screens[2].ctx.follow = true → carried.play = true) ∧
    following.screens[2].ctx.lastProgram = some carried.program ∧ following.screens[2].ctx.lastPosition = some 61500 ∧
    carried.position.toNat = (61500 : Long).toNat + 1 ∧ CueListSafe following.screens[2].cues := by
  simp only [GoodFrame, CueListSafe]; decide +kernel

/-- The bytes of a list but for its last, held by P0 with P0 in use of screen 2. -/
def holding (bytes : List (Option Byte)) : State := following.modPort 0 fun x => { x with attempt := some bytes }

/-- The descriptor above with POSITION-VALID and PLAY clear. -/
def stoppedDescriptor : List Byte :=
  let ten : List Byte := [0x00, 0x75, 0x7E, 0x21, 0x00, 0x00, 0xF0, 0x3D, 0x04, 0x00]
  let check := crc16 (ten.flatMap bitsOf)
  ten ++ [check.extractLsb' 8 8, check.extractLsb' 0 8]

/-- The last byte of a descriptor in its frame. -/
def lastOf (bytes : List Byte) : LinkFrame 16 := good 11 .idle (bytes.getLastD 0) (Vector.replicate 16 5) 0

theorem witness_PositionUpdatesReachTheirScreen :
    following.powered = true ∧ GoodDescriptor 0 2 lastByte carried following ∧ carried.posValid = true ∧
    CueListSafe following.screens[2].cues := by
  refine ⟨by decide +kernel, ⟨⟨descriptor.take 11, by simp only [LastByteArrives, GoodFrame]; decide +kernel, by decide +kernel⟩,
    by decide +kernel⟩, rfl, ?_⟩
  simp only [CueListSafe]; decide +kernel

theorem witness_DescriptorsInferOrLosePosition :
    following.powered = true ∧ CueListSafe following.screens[2].cues ∧
    (∀ m : Fin 8, following.screens[m].ctx.activePort = some 0 ↔ m = 2) ∧
    BadAttempt lastByte 0 (holding (List.replicate 11 none)).ports[0] 0
      (afterLastByte lastByte (holding (List.replicate 11 none)).ports[0]) ∧
    BadAttempt (goodForward 30) 0 (holding (List.replicate 11 none)).ports[0] 0
      { afterMiss 30 31 0 (holding (List.replicate 11 none)).ports[0] with attempt := none } ∧
    (port0 fun x => { x with base := some carried, badRun := 7 }).ports[0].badRun = 7 ∧
    (port0 fun x => { x with base := some carried, badRun := 8 }).ports[0].base.isSome = true ∧
    part.ports[0].base = none ∧ part.ports[0].lostRaised = false ∧
    (port0 fun x => { x with lostRaised := true }).ports[0].lostRaised = true ∧
    GoodDescriptor 0 2 (lastOf stoppedDescriptor) { carried with play := false, posValid := false }
      (holding ((stoppedDescriptor.take 11).map some)) := by
  refine ⟨by decide +kernel, ?_, by decide +kernel, .inl ⟨List.replicate 11 none, by simp only [LastByteArrives, GoodFrame]; decide +kernel, ?_,
    by decide, rfl⟩, .inr (.inr ⟨11, 30, List.replicate 11 none, by decide +kernel, by decide +kernel, by decide, ?_, by decide,
      by decide +kernel, by decide +kernel, rfl, by decide, rfl⟩), by decide +kernel, by decide +kernel, by decide +kernel,
      by decide +kernel, by decide +kernel, ⟨stoppedDescriptor.take 11, by simp only [LastByteArrives, GoodFrame]; decide +kernel,
        by decide +kernel⟩, by decide +kernel⟩
  · simp only [CueListSafe]; decide +kernel
  · intro known h
    cases known <;> simp [List.replicate] at h
  · simp only [GoodFrame]; decide +kernel

/-- `DescriptorsInferOrLosePosition`, where a CHECK ERROR, a STOP or a MISS frame leaves the twelfth byte unknown, and where a
MISPLACED frame comes at expected index 0. -/
theorem witness_DescriptorsInferOrLosePosition_last :
    let x := (holding (List.replicate 11 none)).ports[0]
    BadAttempt (badForward 11) 0 x 0 { afterCheckError 11 0 x with attempt := none } ∧
    BadAttempt (stopForward 11) 0 x 0 { afterStop 11 x with attempt := none } ∧
    BadAttempt missForward 0 x 0 { afterMiss 11 12 0 x with attempt := none } ∧
    BadAttempt (goodForward 30) 0 (reading 0 none).ports[0] 0 { afterMiss 30 31 0 (reading 0 none).ports[0] with attempt := none } := by
  refine ⟨.inr (.inl ⟨List.replicate 11 none, by decide +kernel, by decide +kernel, by decide +kernel, rfl, by decide +kernel, rfl,
      .inl ⟨?_, by decide +kernel, by decide +kernel, rfl⟩⟩),
    .inr (.inl ⟨List.replicate 11 none, by decide +kernel, by decide +kernel, by decide +kernel, rfl, by decide +kernel, rfl,
      .inr (.inl ⟨?_, by decide +kernel, by decide +kernel, rfl⟩)⟩),
    .inr (.inl ⟨List.replicate 11 none, by decide +kernel, by decide +kernel, by decide +kernel, rfl, by decide +kernel, rfl,
      .inr (.inr ⟨?_, by decide +kernel, by decide +kernel, rfl⟩)⟩),
    .inr (.inr ⟨0, 30, [], by decide +kernel, by decide +kernel, by decide, ?_, by decide, by decide +kernel, by decide +kernel, rfl,
      rfl, rfl⟩)⟩
  · simp only [BadCheckFrame]; decide +kernel
  · simp only [StopFrame]; decide +kernel
  · simp only [MissFrame]; decide +kernel
  · simp only [GoodFrame]; decide +kernel

/-- R138 and R142: that byte fires cue 12, whose trigger is at or below the position. R139: at a FORWARD JUMP to 61,501 from
61,000, within the catch-up window, cue 12 fires; beyond it, it is MISSED. R15, R48, R58: a good descriptor with POSITION-VALID
and PLAY clear loses position and stops the following screen. R16: a bad descriptor with a base infers the base position plus 1.
-/
theorem test_descriptors :
    ((after (.programFrameArrival 0 lastByte) following).map (fun t =>
    (t.screens[2].cues.map (·.state), t.screens[2].ctx.lastPosition, t.screens[2].eng.fade)) =
      some ([.fired], some 61501, some { target := 16384, step := 6 })) ∧
    ((after (.programFrameArrival 0 lastByte) (following.modCtx 2 fun c => { c with lastPosition := some 61000 })).map (fun t =>
      t.screens[2].cues.map (·.state)) = some [.fired] ∧
    (after (.programFrameArrival 0 lastByte) (following.modCtx 2 fun c => { c with lastPosition := some 61000, window := 0 })).map
      (fun t => t.screens[2].cues.map (·.state)) = some [.missed]) ∧
    ((after (.programFrameArrival 0 (lastOf stoppedDescriptor)) (holding ((stoppedDescriptor.take 11).map some))).map (fun t =>
      (t.screens[2].ctx.positionLost, t.screens[2].ctx.state, t.screens[2].ctx.descTag)) = some (true, .standby, some 4)) ∧
    ((after (.programFrameArrival 0 lastByte) ((holding (List.replicate 11 none)).modPort 0 fun x =>
      { x with base := some { carried with position := 61500 } })).map (fun t =>
      (t.ports[0].base.map (·.position), t.screens[2].ctx.lastPosition)) = some (some 61501, some 61501)) := by
  decide +kernel

/-- The words of SCREEN-SOURCE ALTERNATE for screen 2 from node 0x34 to node 0xC5, without the check. -/
def sourceWords : List Word := [0xC534, 0x00C2, 0x0107, 1]

/-- P0 with that message under assembly. -/
def assembling (words : List Word) : State :=
  (filling 31 0).modPort 0 fun x => { x with assembly := some { words, source := 0x34, ticks := 0 } }

/-- A frame at index 12 with an END word. -/
def endFrame (word : Word) : LinkFrame 16 := good 12 .fin 0 (Vector.replicate 16 5) word

theorem witness_ServiceMessagesReachTheirRequest :
    (assembling sourceWords).ports[0].state = .locked ∧ (assembling sourceWords).ports[0].expected = some 12 ∧
    GoodFrame (endFrame (messageCheck sourceWords)) 12 ∧ headerCode (endFrame (messageCheck sourceWords)).header = .fin ∧
    (assembling sourceWords).ports[0].buffer.length ≤ 31 ∧
    (assembling sourceWords).ports[0].assembly = some { words := sourceWords, source := 0x34, ticks := 0 } ∧
    messageCheck sourceWords = (endFrame (messageCheck sourceWords)).service ∧
    sourceWords = ((0xC5 : Byte) ++ (0x34 : Byte)) :: (BitVec.ofBool false ++ (12 : BitVec 11) ++ (2 : BitVec 4)) :: 0x0107 :: [1] ∧
    (0xC5 : Byte) = (assembling sourceWords).node ∧ (assembling sourceWords).takes h2 ∧
    (assembling sourceWords).screenLocks[2] = 0 ∧ messageCheck sourceWords ≠ (endFrame 0).service := by
  simp only [GoodFrame, State.takes]; decide +kernel

/-- A GOOD frame at index 12 with a service word, in a code. -/
def wordFrame (code : ServiceCode) : LinkFrame 16 := good 12 code 0 (Vector.replicate 16 5) 0xC534

/-- `ServiceWordsAreAssembled`, at a frame that carries a word. -/
theorem witness_ServiceWordsAreAssembled :
    (∀ code, CarriesWord (wordFrame code) (filling 31 0).ports[0] ∧ IdleTwin (wordFrame code) (idleOf (wordFrame code)) ∧
      headerCode (wordFrame code).header = code) ∧
    CarriesWord (stopForward 12) (filling 31 0).ports[0] ∧ IdleTwin (stopForward 12) (idleOf (stopForward 12)) ∧
    CarriesWord (goodForward 47) part.ports[0] ∧ (filling 31 0).ports[0].state ≠ .down ∧ (filling 31 0).ports[0].assembly = none ∧
    (assembling (List.replicate 62 1)).ports[0].assembly = some { words := List.replicate 62 1, source := 0x34, ticks := 0 } ∧
    (assembling (List.replicate 63 1)).ports[0].assembly = some { words := List.replicate 63 1, source := 0x34, ticks := 0 } ∧
    (List.replicate 2 (1 : Word)).length = 2 ∧ messageCheck sourceWords ≠ (wordFrame .fin).service ∧
    messageCheck [0x0134, 1, 1] = (endFrame (messageCheck [0x0134, 1, 1])).service ∧ part.node ≠ 0x01 := by
  refine ⟨fun code => ?_, .inr (by simp only [StopFrame]; decide +kernel), by simp only [IdleTwin]; decide +kernel,
    .inl ⟨47, by simp only [GoodFrame]; decide +kernel, .inr (by decide +kernel)⟩, by decide +kernel⟩
  cases code <;>
    exact ⟨.inl ⟨12, by simp only [GoodFrame]; decide +kernel, .inl (by decide +kernel)⟩, by simp only [IdleTwin]; decide +kernel,
      by decide +kernel⟩

/-- `ServiceWordsAreAssembled`, at a frame that abandons a message, with an expected index and without. -/
theorem witness_ServiceWordsAreAssembled_abandoned :
    let x := (assembling sourceWords).ports[0]
    let y := (port0 fun x => { x with assembly := some { words := [1], source := 0x34, ticks := 0 } }).ports[0]
    x.assembly.isSome = true ∧ y.assembly.isSome = true ∧ Abandons missForward none x (some 12) ∧
    Abandons (badForward 12) none x (some 12) ∧ Abandons (goodForward 30) none x (some 30) ∧ Abandons missForward none y none ∧
    (∀ free, Abandons (badForward 12) free y free) ∧ Abandons (goodForward 48) none y none := by
  refine ⟨by decide +kernel, by decide +kernel, .inl ⟨?_, by decide +kernel⟩, .inr (.inl ⟨?_, by decide +kernel⟩),
    .inr (.inr ⟨30, ?_, .inl ⟨12, by decide +kernel, by decide, rfl⟩⟩), .inl ⟨?_, by decide +kernel⟩,
    fun free => .inr (.inl ⟨?_, (if_pos (by decide +kernel)).symm⟩), .inr (.inr ⟨48, ?_, .inr ⟨by decide +kernel, by decide, rfl⟩⟩)⟩
  all_goals simp only [MissFrame, BadCheckFrame, GoodFrame]; decide +kernel

/-- `ServiceWordsAreAssembled`, at a boundary: a service tick with a tick behind the message and with none, and no service tick. -/
theorem witness_ServiceWordsAreAssembled_tick :
    stale.powered = true ∧ stale.resetPending = none ∧ stale.taken = [] ∧ (stale.blockCounter + 1).toNat % 16 = 0 ∧
    stale.ports[0].assembly = some { words := [1], source := 0x34, ticks := 1 } ∧
    (stale.modPort 0 fun x => { x with assembly := some { words := [1], source := 0x34, ticks := 0 } }).ports[0].assembly =
      some { words := [1], source := 0x34, ticks := 0 } ∧
    ({ stale with blockCounter := 30 }.blockCounter + 1).toNat % 16 ≠ 0 := by decide +kernel

/-- `PayloadWordsSpellTheOperands`, at that message. The longest payload within the limit is EQ-LOAD SECTIONS with five sections. -/
theorem witness_PayloadWordsSpellTheOperands :
    requestOf (.screenSource h2 .alternate) = some (h2, .screenSource) ∧ (Instr.screenSource h2 .alternate).wf = true ∧ h2.port = 0 ∧
    (operandWords (.screenSource h2 .alternate)).length ≤ 60 ∧
    sourceWords = ((assembling sourceWords).node ++ h2.source) :: (0#1 ++ ReqKind.screenSource.number ++ h2.screen) :: h2.tag ::
      operandWords (.screenSource h2 .alternate) ∧
    (assembling sourceWords).ports[0].assembly = some { words := sourceWords, source := 0x34, ticks := 0 } ∧
    messageCheck sourceWords = (endFrame (messageCheck sourceWords)).service ∧
    headerCode (endFrame (messageCheck sourceWords)).header = .fin ∧
    IdleTwin (endFrame (messageCheck sourceWords)) (idleOf (endFrame (messageCheck sourceWords))) ∧
    CarriesWord (endFrame (messageCheck sourceWords)) (assembling sourceWords).ports[0] ∧
    (operandWords (.eqLoadSections h2 .b 0 0 (List.replicate 5 { b0 := -8388608, b1 := 0, b2 := 0, a1 := 0, a2 := 8388607 }))).length =
      53 := by
  refine ⟨by decide, by decide, by decide, by decide, by decide +kernel, by decide +kernel, by decide +kernel, by decide +kernel,
    by simp only [IdleTwin]; decide +kernel, .inl ⟨12, by simp only [GoodFrame]; decide +kernel, .inl (by decide +kernel)⟩,
    by decide +kernel⟩

/-- The words of other messages to node 0xC5, without the check: LOCK-FREE by force, EQ-READ's screen and channel forms on screen 2,
its part form, and a CUE-LOAD of a FADE with fire-if-due set. -/
def otherWords : List (List Word) :=
  [[0xC534, 0x0042, 0x0107, 1], [0xC534, 0x0152, 0x0107, 0, 0], [0xC534, 0x0152, 0x0107, 1, 1, 15, 0, 0],
   [0xC534, 0x015F, 0x0107, 0], [0xC534, 0x01E2, 0x0107, 12, 0x0075, 0x7E21, 0, 0xF03C, 1, 16384, 3000, 0, 1]]

theorem witness_ServiceMessagesReachTheirRequest_words : otherWords.map (fun words =>
      match words with
      | _ :: second :: _ :: payload => (second.extractLsb' 4 11, second.extractLsb' 0 4, payload.length)
      | _ => (0, 0, 0)) =
    [((4 : BitVec 11), (2 : BitVec 4), 1), (21, 2, 2), (21, 2, 5), (21, 15, 1), (30, 2, 10)] := by decide +kernel

/-- R19: that message, taken on a RUNNING screen with an alternate port, becomes its requested source. R183 and R193: the force
flag's word 1 is set, since the rule names clear first: the forced release of a lock that another node holds on a DARK screen
frees it. R106 and R193: EQ-READ's choice word 1 is the channel form: bank B's channel 15 has no sections, no delay and trim
16,384. -/
theorem test_serviceMessage_words :
    ((after (.programFrameArrival 0 (endFrame (messageCheck sourceWords)))
      ((assembling sourceWords).modCtx 2 fun c => { c with state := .running, alternate := some 7 })).map
      (fun t => t.screens[2].ctx.requested) = some (some .alternate)) ∧
    ((after (.programFrameArrival 0 (endFrame (messageCheck [0xC534, 0x0042, 0x0107, 1])))
      { assembling [0xC534, 0x0042, 0x0107, 1] with screenLocks := #v[0, 0, 0x21, 0, 0, 0, 0, 0] }).map
      (fun t => t.screenLocks[2]) = some 0) ∧
    ((answer (after (.programFrameArrival 0 (endFrame (messageCheck [0xC534, 0x0152, 0x0107, 1, 1, 15, 0, 0])))
      (assembling [0xC534, 0x0152, 0x0107, 1, 1, 15, 0, 0]))).map (fun w => w.take 5) = some [0, 0, 0, 0, 16384]) := by
  decide +kernel

/-- The four slots of an IDENT page of twelve channels with toggle 1, and of a CHANNELS page, LAST, whose channel 5 is FAULT. -/
def pageSlots (body : BitVec 80) (k : Nat) : Slot := (body ++ crc16 (bitsOf body)).extractLsb' (72 - 24 * k) 24

/-- Bits 95 to 16 of the IDENT page: kind 1, toggle 1, rack id 0x1234, twelve channels. -/
def identBody : BitVec 80 := (1#2) ++ (1#1) ++ (0#13) ++ (0x1234#16) ++ (12#8) ++ (0#40)

/-- Bits 95 to 16 of the CHANNELS page: kind 2, toggle 1, LAST, channel 5 in code 2. -/
def channelsBody : BitVec 80 := (2#2) ++ (1#1) ++ (1#1) ++ (0#12) ++ (0x00200000#32) ++ (0#32)

/-- Screen 2's port in a link state, with three slots of a page held. -/
def paging (st : LinkState) (body : BitVec 80) : State := screen2 fun x =>
  { x with link := { x.link with
      link := st, expected := some 3
      attempt := some [some (pageSlots body 0), some (pageSlots body 1), some (pageSlots body 2)] } }

theorem witness_RackFramesLockAndCarryPages :
    part.screens[2].link.link = .hunt ∧ GoodFrame (goodReturn 47 0) 47 ∧ part.screens[2].link.expected = none ∧
    (screen2 fun x => { x with link := { x.link with goodRun := 3, expected := some 0 } }).screens[2].link.goodRun = 3 ∧
    headerSync missReturn.header ≠ 0xA7 ∧ (paging .up identBody).screens[2].link.link ≠ .hunt ∧
    (screen2 fun x => { x with link := { x.link with link := .up, missRun := 2 } }).screens[2].link.missRun = 2 ∧
    GoodFrame (goodReturn 3 (pageSlots identBody 3)) 3 ∧ (paging .exchange identBody).screens[2].link.expected = some 3 ∧
    (paging .exchange identBody).screens[2].link.attempt =
      some [some (pageSlots identBody 0), some (pageSlots identBody 1), some (pageSlots identBody 2)] ∧
    (parsePage [pageSlots identBody 0, pageSlots identBody 1, pageSlots identBody 2, (goodReturn 3 (pageSlots identBody 3)).slots[0]]) =
      some { toggle := true, last := false, content := .ident 0x1234 12 } ∧
    ((parsePage [pageSlots channelsBody 0, pageSlots channelsBody 1, pageSlots channelsBody 2, pageSlots channelsBody 3]).map fun pg =>
      (pg.toggle, pg.last)) = some (true, true) ∧
    (paging .exchange identBody).screens[2].link.lastToggle = false ∧
    (paging .exchange channelsBody).screens[2].link.identSeen = false := by
  simp only [GoodFrame]; decide +kernel

/-- `RackFramesLockAndCarryPages`, at a MISPLACED frame, a CHECK ERROR, the slots of a page, an unknown slot and a bad page. -/
theorem witness_RackFramesLockAndCarryPages_bad :
    let at' (e : Nat) (attempt : Option (List (Option Slot))) : State :=
      screen2 fun x => { x with link := { x.link with link := .up, expected := some e, attempt := attempt } }
    GoodFrame (goodReturn 30 0) 30 ∧ BadCheckFrame (badReturn 3) ∧ GoodFrame (goodReturn 48 0) 48 ∧ (at' 0 none).screens[2].link.missRun ≤ 1 ∧
    (at' 0 none).screens[2].link.expected = some 0 ∧ (at' 2 (some [none, some 5])).screens[2].link.expected = some 2 ∧
    (at' 47 none).screens[2].link.expected = some 47 ∧ GoodFrame (goodReturn 0 5) 0 ∧ GoodFrame (goodReturn 2 5) 2 ∧
    GoodFrame (goodReturn 3 5) 3 ∧ headerSync missReturn.header ≠ 0xA7 ∧
    (∀ l : List Slot, (at' 3 (some [some 5, none, some 5])).screens[2].link.attempt = some (l.map some) →
      parsePage (l ++ [(goodReturn 3 5).slots[0]]) = none) ∧
    (∀ l : List Slot, (at' 3 (some [some 5, some 5, some 5])).screens[2].link.attempt = some (l.map some) →
      parsePage (l ++ [(goodReturn 3 5).slots[0]]) = none) := by
  refine ⟨?_, ?_, ?_, by decide +kernel, by decide +kernel, by decide +kernel, by decide +kernel, ?_, ?_, ?_, by decide +kernel, ?_, ?_⟩
  · simp only [GoodFrame]; decide +kernel
  · simp only [BadCheckFrame]; decide +kernel
  · simp only [GoodFrame]; decide +kernel
  · simp only [GoodFrame]; decide +kernel
  · simp only [GoodFrame]; decide +kernel
  · simp only [GoodFrame]; decide +kernel
  · intro l h
    have h : some [some 5, none, some 5] = some (l.map some) := h
    match l, h with
    | [], h | [_], h | _ :: _ :: _, h => simp at h
  · intro l h
    have h : some [some 5, some 5, some 5] = some (l.map some) := h
    have e : l = [5, 5, 5] := List.map_injective_iff.mpr (Option.some_injective _) (Option.some.inj h).symm
    subst e
    decide +kernel

/-- R34: the IDENT page gives the rack's id and channel count, and the toggle is echoed. -/
theorem test_rackFrameArrival_page :
    (after (.rackFrameArrival 2 (goodReturn 3 (pageSlots identBody 3))) (paging .exchange identBody)).map (fun t =>
      (t.screens[2].link.rackId, t.screens[2].link.channelCount, t.screens[2].link.echo)) =
      some (some 0x1234, some 12, true) := by decide +kernel

/-- Screen 2 RUNNING from P0, whose reader has started with entries in its buffer, and a message being sent on P0. -/
def playing (entries : Nat) : State :=
  ((inState .running).modPort 0 fun x =>
    { x with state := .locked, started := true, buffer := List.replicate entries silence }).modArb 0 fun a =>
    { a with channel := some { owner := .resp, words := [1, 2, 3, 4], sent := 3, forReset := false } }

theorem witness_MasterFrame :
    (playing 1).powered = true ∧ (playing 1).resetPending = none ∧ (playing 1).frameIndex ≤ 47 ∧
    ({ playing 1 with frameIndex := 47 } : State).frameIndex = 47 ∧ (playing 1).ports[0].state ≠ .down ∧
    (port0 fun x => { x with state := .down }).ports[0].state = .down ∧
    ((playing 1).arbiters[0].channel.bind fun m => m.words[m.sent]?) = some 4 ∧ (playing 1).ports[0].started = true ∧
    (playing 1).ports[0].buffer = [silence] ∧ (playing 0).ports[0].buffer = [] ∧ (playing 0).screens[2].ctx.state ≠ .dark ∧
    (playing 0).screens[1].ctx.state = .dark ∧ (playing 0).screens[1].eng.crossfade = none ∧
    ((playing 0).modEng 2 fun e => { e with mute := true }).screens[2].eng.mute = true := by decide +kernel

/-- P0 LOCKED with screen 2 alone at its arbiter, whose notice waits. -/
def noticing : State :=
  (clipPending.modPort 0 fun x => { x with state := .locked }).modNotice 2 fun v =>
    { v with unsent := some { words := [1, 2, 3, 4], tag := 0, sending := false } }

/-- Screen 2 RUNNING from P0, whose reader has run out of entries, with SLIP enabled. -/
def slipping : State := ((playing 0).modCtx 2 fun c => { c with activePort := some 0 }).modMon 2 fun m =>
  { m with evaluated := .running
           table := m.table.set 4 { enable := true, level := 2, threshold := none, count := 4, window := 1000, release := 5000
                                    quiet := false } }

/-- `MasterFrameSendsOnEveryPort`, where a message is granted in the frame: the response queue's, and one screen's. -/
theorem witness_MasterFrameSendsOnEveryPort_grant :
    sharing.powered = true ∧ sharing.resetPending = none ∧ sharing.frameIndex ≤ 47 ∧ sharing.arbiters[0].channel = none ∧
    sharing.ports[0].state = .locked ∧ (∀ n : Fin 8, sharing.screens[n].ctx.route.map (·.port) ≠ some 0) ∧
    sharing.arbiters[0].queue.map (·.words) = List.replicate 3 [1, 2, 3, 4] ∧ noticing.powered = true ∧
    noticing.resetPending = none ∧ noticing.frameIndex ≤ 47 ∧ noticing.ports[0].state = .locked ∧ noticing.arbiters[0].queue = [] ∧
    (∀ m : Fin 8, noticing.screens[m].ctx.route.map (·.port) = some 0 ↔ m = 2) ∧
    noticing.screens[2].notice.unsent = some { words := [1, 2, 3, 4], tag := 0, sending := false } ∧
    ∀ q : Fin 12, noticing.arbiters[q].channel = none := by decide +kernel

/-- `MasterFrameReadsAndMeters`, where a reader repeats its last entry. -/
theorem witness_MasterFrameReadsAndMeters_slip :
    slipping.powered = true ∧ slipping.resetPending = none ∧ slipping.screens[2].ctx.activePort = some 0 ∧
    slipping.ports[0].state = .locked ∧ slipping.ports[0].started = true ∧ slipping.ports[0].buffer = [] ∧
    Watched slipping.screens[2].mon 49 ∧ slipping.screens[1].ctx.activePort = none := by
  simp only [Watched, SuppressedBy]; decide +kernel

/-- Screen 2 RUNNING before the 64th frame of a crossfade to bank B, with CLIP enabled. -/
def fading : State := ((playing 1).modEng 2 fun e => { e with crossfade := some { incoming := .b, frame := 63 } }).modMon 2 fun m =>
  { m with evaluated := .running
           table := m.table.set 0 { enable := true, level := 2, threshold := none, count := 1, window := 1, release := 0
                                    quiet := false } }

theorem witness_MasterFrameRunsTheSignalPath :
    fading.powered = true ∧ fading.resetPending = none ∧ fading.screens[2].ctx.state ≠ .dark ∧
    fading.screens[2].eng.crossfade = some { incoming := .b, frame := 63 } ∧ (playing 1).screens[2].eng.crossfade = none ∧
    Watched fading.screens[2].mon 15 ∧ ¬Watched (playing 1).screens[2].mon 0 ∧ fading.screens[2].dec.format.steering = none ∧
    (fading.modScreen 2 fun x => { x with dec := { x.dec with format := formatMatrixTwo } }).screens[2].dec.format.steering =
      some { first := 0, second := 1, shift := 9, slew := 8 } := by
  simp only [Watched, SuppressedBy]; decide +kernel

/-- R74 and R75: slots at full scale through a matrix of coefficient 2 - 2^-14 clip channel 0, which raises its CLIP alarm. -/
def clipping : State :=
  let row : FormatRow := { role := .c, a := (Vector.replicate 16 0).set 0 32767, b := Vector.replicate 16 0 }
  (fading.modPort 0 fun x => { x with buffer := [Vector.replicate 16 0x7FFFFF] }).modScreen 2 fun x =>
    { x with ctx := { x.ctx with activePort := some 0 }
             eng := { x.eng with crossfade := none }
             dec := { x.dec with format := { inputs := 1, rows := [row], steering := none }
                                 map := x.dec.map.set 0 { role := some .c, expected := true, partner := none, gain := 0 } } }

theorem test_masterFrame_clip : (after .masterFrame clipping).map (fun t =>
    (t.screens[2].mon.alarms[(0 : Fin 54)].state, t.screens[2].mon.alarms[(1 : Fin 54)].state)) = some (.raised, .clear) := by
  decide +kernel

/-- A part whose timers all end at the coming boundary. -/
def ending : State :=
  ((part.modPort 0 fun x => { x with state := .holdover, holdoverLeft := 1 }).modPort 1 fun x =>
    { x with state := .holdover, holdoverLeft := 2, window := some { count := 1, left := 1 } }).modScreen 2 fun x =>
    { x with link := { x.link with link := .exchange, timer := 1 }, eng := { x.eng with pendingSwitch := some .b }
             quiet := some 1 }

theorem witness_BoundaryMovesTheTimers :
    ending.powered = true ∧ ending.resetPending = none ∧ ending.taken = [] ∧ ending.ports[0].state = .holdover ∧
    ending.ports[0].holdoverLeft = 1 ∧ ending.ports[1].holdoverLeft = 2 ∧ ending.ports[1].assembly = none ∧
    2 ≤ ending.arbiters[0].remainder ∧ (arb0 fun a => { a with remainder := 1 }).arbiters[0].remainder = 1 ∧
    (∃ r, clipPending.screens[2].ctx.route = some r ∧ r.port = 0) ∧ ending.screens[2].link.link = .exchange ∧
    ending.screens[2].link.timer = 1 ∧ ending.screens[2].eng.crossfade = none ∧
    ending.screens[2].eng.pendingSwitch = some .b ∧ ending.screens[2].ctx.state = .dark ∧
    (ending.modCtx 2 fun c => { c with state := .running }).screens[2].ctx.state ≠ .dark ∧
    ending.screens[1].eng.pendingSwitch = none ∧ ending.lines[0].mode = .cue := by
  refine ⟨rfl, rfl, rfl, ?_, ?_, ?_, ?_, ?_, ?_, ⟨_, rfl, rfl⟩, ?_, ?_, ?_, ?_, ?_, ?_, ?_, ?_⟩ <;> decide +kernel

/-- `BoundaryMovesTheTimers`, where a response has four ticks behind it, and where a crossfade runs and has run its 64th frame. -/
theorem witness_BoundaryMovesTheTimers_more :
    oldResponse.powered = true ∧ oldResponse.resetPending = none ∧ oldResponse.taken = [] ∧
    oldResponse.arbiters[0].queue.map (·.placedAt) = [0] ∧ oldResponse.arbiters[0].responsesExpired ≤ 65535 ∧
    (oldResponse.blockCounter + 1).toNat % 16 = 0 ∧ 4 ≤ ((oldResponse.blockCounter + 1).toNat / 16 + 2 ^ 28 - 0) % 2 ^ 28 ∧
    fading.powered = true ∧ fading.resetPending = none ∧ fading.taken = [] ∧
    fading.screens[2].eng.crossfade = some { incoming := .b, frame := 63 } ∧
    (fading.modEng 2 fun e => { e with crossfade := some { incoming := .b, frame := 64 } }).screens[2].eng.crossfade =
      some { incoming := .b, frame := 64 } := by decide +kernel

/-- Screen 2 RUNNING on P3 with P7 as alternate, P3 LOST and P7 LOCKED, failover due, an override, and LINK enabled (03, the worked
failover). -/
def failing : State :=
  (((part.modPort 3 fun x => { x with state := .lost }).modPort 7 fun x => { x with state := .locked }).modScreen 2 fun x =>
    { x with ctx := { x.ctx with state := .running, primary := some 3, alternate := some 7, active := .primary, activePort := some 3
                                 failoverDue := true, override := some 5, descTag := some 4 }
             mon := { x.mon with table := x.mon.table.set 6 { enable := true, level := 0, threshold := none, count := 1, window := 1
                                                              release := 0, quiet := false } } })

theorem witness_BoundarySettlesEachScreen :
    failing.powered = true ∧ failing.resetPending = none ∧ failing.taken = [] ∧ failing.screens[2].ctx.state = .running ∧
    failing.screens[2].ctx.requested = none ∧ failing.screens[2].ctx.failoverDue = true ∧
    failing.screens[2].ctx.active = .primary ∧ failing.screens[2].ctx.primary = some 3 ∧ failing.ports[3].state = .lost ∧
    failing.screens[2].ctx.alternate = some 7 ∧ failing.ports[7].state = .locked ∧ failing.validTag 5 = true ∧
    failing.validTag 31 = false ∧ (failing.format? 5).isSome = true ∧ failing.screens[2].dec.tag ≠ 5 ∧
    failing.screens[2].link.link ≠ .up ∧ failing.screens[2].mon.alarms[(51 : Fin 54)].state = .clear ∧
    (failing.screens[2].mon.record 51).enable = true ∧ (failing.screens[2].mon.record 51).count ≤ 1 ∧
    ((failing.modCtx 2 fun c => { c with requested := some .alternate }).screens[2].ctx.requested) = some .alternate ∧
    ((screen2 fun x => { x with link := { x.link with link := .up, channelCount := some 12 } }).screens[2].link.channelCount) =
      some 12 := by decide +kernel

/-- `BoundarySettlesEachScreen`, where the source is selected again, where a due failover is cleared without a switch, where the
primary port is about to be LOST, and where LINK has not been ended ahead. -/
theorem witness_BoundarySettlesEachScreen_source :
    let again := failing.modCtx 2 fun c => { c with primary := some 5, failoverDue := false }
    let stays := failing.modPort 7 fun x => { x with state := .hunt }
    let told := (failing.modPort 3 fun x => { x with state := .holdover, holdoverLeft := 1 }).modCtx 2 fun c =>
      { c with failoverDue := false }
    again.screens[2].ctx.state ≠ .dark ∧ again.screens[2].ctx.active = .primary ∧
    again.screens[2].ctx.activePort ≠ again.screens[2].ctx.primary ∧ again.screens[2].ctx.failoverDue = false ∧
    stays.screens[2].ctx.failoverDue = true ∧ stays.boundary.ports[7].state ≠ .locked ∧
    told.screens[2].ctx.alternate.isSome = true ∧ told.ports[3].state = .holdover ∧ told.ports[3].holdoverLeft = 1 ∧
    told.boundary.ports[3].state = .lost ∧ failing.screens[2].mon.alarms[(51 : Fin 54)].early = none ∧
    part.screens[2].ctx.state = .dark := by decide +kernel

/-- Screen 2 RUNNING in 2-channel matrix with the envelopes and the weight of 04's worked case, and channels 0 and 1 partners of
each other with no rack. -/
def steered : State := (part.modScreen 2 fun x =>
    { x with ctx := { x.ctx with state := .running, override := some 5, foldEnable := true
                                 map := (x.ctx.map.set 0 { x.ctx.map[0] with partner := some 1 }).set 1
                                   { x.ctx.map[1] with partner := some 0 } }
             dec := { x.dec with tag := 5, format := formatMatrixTwo, stale := false, sumEnv := 2000000, diffEnv := 1000000
                                 weight := 10 } })

/-- `BoundarySteersAndCountsFoldLosses`: a steered screen that is not reset, one that is, one in DARK, and a channel that turns
DROPPED. -/
theorem witness_BoundarySteersAndCountsFoldLosses :
    steered.powered = true ∧ steered.resetPending = none ∧ steered.taken = [] ∧ steered.screens[2].ctx.state ≠ .dark ∧
    steered.boundary.screens[2].ctx.resolved = steered.screens[2].dec.tag ∧ steered.screens[2].dec.stale = false ∧
    steered.screens[2].ctx.requested = none ∧ steered.screens[2].ctx.failoverDue = false ∧
    steered.boundary.screens[2].dec.format.steering.isSome = true ∧ 0 ≤ steered.screens[2].dec.diffEnv ∧
    steered.screens[2].dec.diffEnv < steered.screens[2].dec.sumEnv ∧
    steered.boundary.screens[2].dec.target = 21 ∧ steered.boundary.screens[2].dec.weight = 18 ∧
    failing.boundary.screens[2].ctx.resolved ≠ failing.screens[2].dec.tag ∧
    (failing.format? failing.boundary.screens[2].ctx.resolved).isSome = true ∧ part.screens[2].ctx.state = .dark ∧
    steered.screens[2].dec.folds[0] ≠ .dropped ∧ steered.boundary.screens[2].dec.folds[0] = .dropped ∧
    steered.boundary.screens[2].dec.foldLosses = 2 := by decide +kernel

/-- The worked timeline's screen RUNNING, with line 3 in ALARM mode for it and line 4 for no screen. -/
def alarming : State :=
  { timeline.modCtx 2 fun c => { c with state := .running, meterSpeed := 2 } with
    lines := (part.lines.set 3 { owner := some 2, mode := .alarm, threshold := 1, closed := false, pulseEnd := none }).set 4
      { owner := none, mode := .alarm, threshold := 1, closed := false, pulseEnd := none } }

theorem witness_BoundaryRunsTheAlarmInstances :
    alarming.powered = true ∧ alarming.resetPending = none ∧ alarming.taken = [] ∧
    exec .masterBlockBoundary alarming = .next alarming.boundary ∧ Watched alarming.boundary.screens[2].mon 18 ∧
    ¬Watched alarming.boundary.screens[2].mon 48 ∧ alarming.lines[3].mode = .alarm ∧ alarming.lines[3].owner = some 2 ∧
    alarming.lines[3].pulseEnd = none ∧ alarming.lines[4].mode = .alarm ∧ alarming.lines[4].owner = none := by
  refine ⟨rfl, rfl, rfl, rfl, ?_⟩
  simp only [Watched, SuppressedBy]; decide +kernel

/-- 03: the boundary that follows switches the screen to the alternate, with failover count 1; and LINK is RAISED. 06, block b3
of the worked timeline: the third occurrence raises OVER of channel 2, its line closes and its id is pending. -/
theorem test_boundary_raises :
    ((after .masterBlockBoundary failing).map (fun t =>
    (t.screens[2].ctx.active, t.screens[2].ctx.failovers, t.screens[2].ctx.resolved,
      t.screens[2].mon.alarms[(51 : Fin 54)].state)) = some (.alternate, 1, 5, .raised)) ∧
    ((after .masterBlockBoundary (alarming.modMon 2 fun m =>
      { m with alarms := m.alarms.set 18 { state := .qualifying, count := 2, left := 3, clean := 0, hit := false } })).map (fun t =>
      (t.screens[2].mon.alarms[(18 : Fin 54)].state, t.screens[2].mon.pending[(18 : Fin 54)], t.lines[3].closed)) =
      some (.raised, some false, true)) := by
  decide +kernel

/-! ### Hypotheses of the statements on queued and timed steps -/

theorem witness_ArbiterGrantsInTurn :
    sharing.ports[0].state = .locked ∧ sharing.arbiters[0].channel = none ∧ Waits sharing 0 .resp ∧
    FirstAfter sharing.arbiters[0].lastGranted (fun q => Waits sharing 0 q ∧ 1 ≤ remaining sharing.arbiters[0] q) .resp ∧
    (let s := sharing.modArb 0 fun a => { a with respLeft := 0 }
     (∀ q, ¬(Waits s 0 q ∧ 1 ≤ remaining s.arbiters[0] q)) ∧ FirstAfter s.arbiters[0].holder (Waits s 0) .resp) ∧
    (let s := sharing.modArb 0 fun a => { a with respLeft := 0, holder := some .resp, burst := 1 }
     s.arbiters[0].holder = some .resp ∧ Waits s 0 .resp ∧ s.arbiters[0].burst < s.weightOf 0 .resp) ∧
    (∀ q, ¬Waits part 0 q) ∧
    clipPending.screens[2].ctx.route = some { port := 0, node := 0x21, count := 1, weight := 1 } := by
  have none' (s : State) (n : Fin 8) (h : s.screens[n].ctx.route = none) : ¬Waits s 0 (.screen n) := by
    rintro ⟨r, u, h1, -⟩
    rw [h] at h1
    cases h1
  have w (s : State) (h : s.arbiters[0].queue ≠ []) : Waits s 0 .resp := h
  have route : ∀ n : Fin 8, sharing.screens[n].ctx.route = none := by decide +kernel
  refine ⟨by decide +kernel, by decide +kernel, w _ (by decide +kernel), ⟨⟨w _ (by decide +kernel), by decide +kernel⟩, [], _, rfl,
    by simp⟩, ⟨?_, w _ (by decide +kernel), [], _, rfl, by simp⟩, ⟨rfl, w _ (by decide +kernel), by decide +kernel⟩, ?_, by decide +kernel⟩
  · rintro (_ | n) ⟨h1, h2⟩
    · revert h2
      decide +kernel
    · exact none' _ n (route n) h1
  · rintro (_ | n) h
    · exact h (by decide +kernel)
    · have : ∀ n : Fin 8, part.screens[n].ctx.route = none := by decide +kernel
      exact none' _ n (this n) h

/-- A message on the channel of P0, with words left or none. -/
def sending (owner : Requester) (sent : Nat) : State :=
  arb0 fun a => { a with channel := some { owner, words := [1, 2], sent, forReset := true } }

theorem witness_SentAndAbandonedMessagesFreeTheChannel :
    part.arbiters[0].channel = none ∧
    (∃ m, (sending .resp 2).arbiters[0].channel = some m ∧ m.words.length ≤ m.sent ∧ m.owner = .resp) ∧
    (∃ m, (sending (.screen 7) 2).arbiters[0].channel = some m ∧ m.words.length ≤ m.sent ∧ m.owner = .screen 7) ∧
    (∃ m, (sending .resp 1).arbiters[0].channel = some m ∧ m.sent < m.words.length ∧ m.owner = .resp) ∧
    ∃ m, (sending (.screen 0) 1).arbiters[0].channel = some m ∧ m.sent < m.words.length ∧ m.owner = .screen 0 := by
  refine ⟨by decide +kernel, ?_, ?_, ?_, ?_⟩ <;> exact ⟨_, by rfl, by decide, rfl⟩

theorem witness_NoticeChoiceTakesTheLowestLevel :
    (∃ route, clipPending.screens[2].ctx.route = some route) ∧ clipPending.screens[2].notice.unsent = none ∧
    Chosen clipPending.screens[2] (.alarm 5) 2 ∧ part.screens[2].ctx.route = none := by
  have only : ∀ id : Fin 54, clipPending.screens[2].mon.pending[id] = some false → id = 5 := by decide +kernel
  have marks : clipPending.screens[2].mon.marks = [] := by decide +kernel
  refine ⟨⟨_, rfl⟩, by decide +kernel, ⟨⟨⟨by decide +kernel, by decide +kernel⟩, by decide, by decide +kernel⟩, ?_⟩, by decide +kernel⟩
  rintro (id | cue) lv ⟨h, -⟩
  · obtain ⟨h1, h2⟩ := h
    have e := only id h1
    subst e
    exact .inr ⟨h2 ▸ by decide +kernel, Nat.le_refl _⟩
  · obtain ⟨rest, h⟩ := h
    rw [marks] at h
    cases h

theorem witness_LinkTimersEndTheirItems_ports :
    Share.holdover 0 ∉ ending.taken ∧ ending.ports[0].state = .holdover ∧ ending.ports[0].holdoverLeft ≤ 1 ∧
    2 ≤ ending.ports[1].holdoverLeft ∧ ending.ports[1].window = some { count := 1, left := 1 } ∧
    ({ ending with taken := [.holdover 0] } : State).taken = [Share.holdover 0] ∧ Share.message 0 ∉ stale.taken ∧
    (stale.blockCounter + 1).toNat % 16 = 0 ∧ stale.ports[0].assembly = some { words := [1], source := 0x34, ticks := 1 } ∧
    (part.blockCounter + 1).toNat % 16 ≠ 0 := by decide +kernel

theorem witness_LinkTimersEndTheirItems :
    Share.exchange 2 ∉ ending.taken ∧ ending.screens[2].link.link = .exchange ∧ ending.screens[2].link.timer ≤ 1 ∧
    ending.screens[1].link.link ≠ .exchange ∧ (oldResponse.blockCounter + 1).toNat % 16 = 0 ∧
    4 ≤ ((oldResponse.blockCounter + 1).toNat / 16 + 2 ^ 28 - (0 : Long).toNat / 16) % 2 ^ 28 ∧
    oldResponse.arbiters[0].queue = [{ words := [1], placedAt := 0, forReset := false }] ∧ Share.reload 0 ∉ part.taken ∧
    (arb0 fun a => { a with remainder := 1 }).arbiters[0].remainder ≤ 1 ∧ 2 ≤ part.arbiters[0].remainder := by decide +kernel

/-- Screen 2 with LINK qualifying at count 1 of 2 in the last block of its window, its port not UP. -/
def secondBlockDown : State := monitor2 fun m =>
  { m with table := m.table.set 6 { enable := true, level := 0, threshold := none, count := 2, window := 1, release := 0, quiet := false }
           alarms := m.alarms.set 51 { state := .qualifying, count := 1, left := 1, clean := 0, hit := false } }

/-- R112 and R117: the ending block's occurrence comes before the boundary step, so that QUALIFY_WINDOW_EXPIRY does not end the
instance, and the boundary raises it. -/
theorem test_qualifyWindowExpiry_last :
    (after (.qualifyWindowExpiry 2 51) secondBlockDown).map (fun t => t.screens[2].mon.alarms[(51 : Fin 54)].state) =
      some .qualifying ∧
    (after .masterBlockBoundary secondBlockDown).map (fun t => t.screens[2].mon.alarms[(51 : Fin 54)].state) = some .raised := by
  decide +kernel

/-- P0 in use of screen 2, with SLIP qualifying at count 3 of 4 in the last block of its window, and its buffer full. -/
def fourthSlip : State :=
  ((filling 32 0).modCtx 2 fun c => { c with state := .running, activePort := some 0 }).modMon 2 fun m =>
    { m with evaluated := .running
             table := m.table.set 4 { enable := true, level := 2, threshold := none, count := 4, window := 1000, release := 5000
                                      quiet := false }
             alarms := m.alarms.set 49 { state := .qualifying, count := 3, left := 1, clean := 0, hit := false } }

/-- R116 and R117: a slip in the block's rest still finds the instance that the command has ended, and raises it. -/
theorem test_earlyEnd_resumed :
    ((after (.qualifyWindowExpiry 2 49) fourthSlip).bind (after (.programFrameArrival 0 (goodForward 12)))).map (fun t =>
      t.screens[2].mon.alarms[(49 : Fin 54)].state) = some .raised := by decide +kernel

theorem witness_ScreenTimersEndTheirItems :
    (line3 fun x => { x with pulseEnd := some 1 }).lines[3].pulseEnd = some ((line3 fun x => x).blockCounter + 1) ∧
    ending.screens[2].quiet = some (ending.blockCounter + 1) ∧
    (engine2 fun e => { e with crossfade := some { incoming := .b, frame := 64 } }).screens[2].eng.crossfade =
      some { incoming := .b, frame := 64 } ∧
    (engine2 fun e => { e with crossfade := some { incoming := .b, frame := 63 } }).screens[2].eng.crossfade =
      some { incoming := .b, frame := 63 } ∧
    (let s := linkAlarm { state := .qualifying, count := 1, left := 1, clean := 0, hit := false }
     (s.screens[2].mon.alarms[(51 : Fin 54)].state = .qualifying ∧ s.screens[2].mon.alarms[(51 : Fin 54)].left ≤ 1) ∧
     ∃ u, exec .masterBlockBoundary s = .next u ∧ u.screens[2].mon.alarms[(51 : Fin 54)].state = .clear) ∧
    (let s := linkAlarm { state := .releasing, count := 0, left := 0, clean := 0, hit := false }
     (s.screens[2].mon.alarms[(51 : Fin 54)].state = .releasing ∧ s.screens[2].mon.alarms[(51 : Fin 54)].hit = false ∧
       (s.screens[2].mon.record 51).release ≤ s.screens[2].mon.alarms[(51 : Fin 54)].clean + 1) ∧
     ∃ u, exec .masterBlockBoundary s = .next u ∧ u.screens[2].mon.alarms[(51 : Fin 54)].state = .clear) ∧
    ¬∃ u, exec .masterBlockBoundary secondBlockDown = .next u ∧ u.screens[2].mon.alarms[(51 : Fin 54)].state = .clear := by
  refine ⟨by decide +kernel, by decide +kernel, by decide +kernel, by decide +kernel, ⟨by decide +kernel, _, rfl, by decide +kernel⟩,
    ⟨by decide +kernel, _, rfl, by decide +kernel⟩, ?_⟩
  rintro ⟨u, h, k⟩
  have e : secondBlockDown.boundary = u := Host.Outcome.next.inj (show Host.Outcome.next secondBlockDown.boundary = .next u from h)
  have raised : secondBlockDown.boundary.screens[2].mon.alarms[(51 : Fin 54)].state = .raised := by decide +kernel
  rw [← e, raised] at k
  cases k

/-- Screen 2 with CLIP of channel 5 in a state. -/
def clipAlarm (a : Alarm) : State := monitor2 fun m => { m with alarms := m.alarms.set 5 a }

/-- `ScreenTimersEndTheirItems`, where the commands complete: no condition of CLIP holds at a boundary, and LINK of a port that is
not UP stays below its count of 500. -/
theorem witness_ScreenTimersEndTheirItems_complete :
    (∀ s : State, ¬MayOccur s 2 5) ∧
    (let s := linkAlarm { state := .qualifying, count := 1, left := 1, clean := 0, hit := false }
     s.powered = true ∧ s.resetPending = none ∧ s.screens[2].mon.alarms[(51 : Fin 54)].early = none ∧
      s.screens[2].mon.alarms[(51 : Fin 54)].state = .qualifying ∧ s.screens[2].mon.alarms[(51 : Fin 54)].left ≤ 1 ∧ MayOccur s 2 51 ∧
      s.screens[2].mon.alarms[(51 : Fin 54)].count + 2 ≤ (s.screens[2].mon.record 51).count) ∧
    (let s := clipAlarm { state := .qualifying, count := 7, left := 1, clean := 0, hit := false }
     s.powered = true ∧ s.resetPending = none ∧ s.screens[2].mon.alarms[(5 : Fin 54)].early = none ∧
      s.screens[2].mon.alarms[(5 : Fin 54)].state = .qualifying ∧ s.screens[2].mon.alarms[(5 : Fin 54)].left ≤ 1) ∧
    let s := clipAlarm { state := .releasing, count := 0, left := 0, clean := 1999, hit := false }
    s.powered = true ∧ s.resetPending = none ∧ s.screens[2].mon.alarms[(5 : Fin 54)].early = none ∧
      s.screens[2].mon.alarms[(5 : Fin 54)].state = .releasing ∧ s.screens[2].mon.alarms[(5 : Fin 54)].hit = false ∧
      (s.screens[2].mon.record 5).release ≤ s.screens[2].mon.alarms[(5 : Fin 54)].clean + 1 := by
  refine ⟨fun s => ?_, ⟨by decide +kernel, by decide +kernel, by decide +kernel, by decide +kernel, by decide +kernel,
    .inr (.inr (.inr (.inr (.inl ⟨rfl, by decide +kernel⟩)))), by decide +kernel⟩, by decide +kernel, by decide +kernel⟩
  rintro (⟨c, h, -⟩ | ⟨c, h, -⟩ | ⟨h, -⟩ | ⟨h, -⟩ | ⟨h, -⟩ | ⟨h, -⟩) <;> simp at h <;> omega

theorem witness_SignalPathRoundsAndClamps :
    (0 : Int) ≤ 1000000 ∧ (1000000 : Int) < 2000000 ∧ (16 : Nat) ≤ 64 ∧
    (8388608 * 1048576 : Int) ≤ 1048576 * 8388608 + 524288 ∧ (1048576 * (-8388609) + 524288 : Int) < -8388608 * 1048576 := by decide

theorem witness_StaySafe : step part = .next part ∧ part.PortsSafe ∧ part.ArbitersSafe ∧ part.EnginesSafe := by
  refine ⟨rfl, ?_, ?_, ?_⟩
  · simp only [State.PortsSafe, Port.Safe]; decide +kernel
  · simp only [State.ArbitersSafe, Arbiter.Safe]; decide +kernel
  · intro n
    have h : ∀ n : Fin 8, part.screens[n].eng.fader = 0 ∧ part.screens[n].eng.fade = none := by decide +kernel
    exact ⟨by rw [(h n).1]; omega, fun f e => by rw [(h n).2] at e; cases e⟩

/-- A state with a notice on its stack, a standing alarm, a line in ALARM mode and a cue in a list meets the other three. -/
def guarded : State :=
  { (listed.modScreen 2 fun x => { x with notice := nested.screens[2].notice
                                          mon := { x.mon with alarms := x.mon.alarms.set 51
                                                                { state := .raised, count := 0, left := 0, clean := 0, hit := false }
                                                              summary := some 0 } }) with
    lines := part.lines.set 3 { owner := some 2, mode := .alarm, threshold := 0, closed := true, pulseEnd := none } }

theorem witness_StaySafe_guarded : guarded.AlarmsSafe ∧ guarded.NoticesSafe ∧ guarded.CuesSafe := by
  refine ⟨⟨?_, ?_⟩, ?_, ?_, ?_⟩
  · simp only [Monitor.Safe]; decide +kernel
  · simp only [State.LineSafe]; decide +kernel
  · intro n
    have h : ∀ n : Fin 8, (guarded.screens[n].notice.ceiling = 4 ∧ guarded.screens[n].notice.stack = []) ∨
        (guarded.screens[n].notice.ceiling = 2 ∧
          guarded.screens[n].notice.stack = [{ saved := 4, source := .alarm 5, level := 2, tag := 1 }]) := by decide +kernel
    rcases h n with ⟨h1, h2⟩ | ⟨h1, h2⟩
    · exact ⟨by rw [h1, h2]; rfl, by rw [h2]; decide⟩
    · exact ⟨by rw [h1, h2]; exact ⟨rfl, by decide, by decide, rfl⟩, by rw [h2]; decide⟩
  · simp only [CueListSafe]; decide +kernel
  · have h : guarded.freeStack ++ guarded.cueRecords = (List.range 512).tail ++ [0] := by decide +kernel
    have e : [0] ++ (List.range 512).tail = List.range 512 := by decide +kernel
    rw [h]
    exact List.perm_append_comm.trans (by rw [e])

end Sys2Proof.Tests
end

-- Proofs/RackFrames: return frames at a screen port (O44)
section
/-! What one return frame does to a screen port (R30 to R37): the class of a frame, then one equation for each case of the link state,
of the sync-miss run, of the slot it carries and of the page it completes. -/

namespace Sys2Proof.Machine

/-! ### The class of a return frame -/

section
variable {f : LinkFrame 1} {expected : Option Nat} {e : Nat}

/-- A frame with normal sync and a good check is classed by its index alone (R30). -/
theorem classifyReturn_of_goodFrame (h : GoodFrame f e) :
    classifyReturn expected f = classOfNormal expected e true ∧ headerIndex f.header = e := by
  obtain ⟨hsync, hcheck, hindex⟩ := h
  exact ⟨by simp [classifyReturn, normalSync, checkGood, hsync, hcheck, hindex], hindex⟩

theorem classifyReturn_good (h : GoodFrame f e) (hx : expected = some e ∨ (expected = none ∧ e ≤ 47)) :
    classifyReturn expected f = .good := by
  rw [(classifyReturn_of_goodFrame h).1]
  rcases hx with rfl | ⟨rfl, he⟩
  · simp [classOfNormal]
  · simp [classOfNormal, he]

theorem classifyReturn_misplaced {i : Nat} (h : GoodFrame f e) (hx : expected = some i) (hne : e ≠ i) :
    classifyReturn expected f = .misplaced := by
  rw [(classifyReturn_of_goodFrame h).1, hx]
  simp [classOfNormal, hne]

theorem classifyReturn_badCheck (h : BadCheckFrame f) : classifyReturn expected f = .checkError := by
  obtain ⟨hsync, hcheck⟩ := h
  simp [classifyReturn, classOfNormal, normalSync, checkGood, hsync, hcheck]

/-- A frame without normal sync is a MISS, a stop sync too (R30). -/
theorem classifyReturn_noSync (h : headerSync f.header ≠ 0xA7) : classifyReturn expected f = .miss := if_neg h

theorem classifyReturn_miss (h : headerSync f.header ≠ 0xA7 ∨ (GoodFrame f e ∧ expected = none ∧ 48 ≤ e)) :
    classifyReturn expected f = .miss := by
  rcases h with h | ⟨h, rfl, he⟩
  · exact classifyReturn_noSync h
  · rw [(classifyReturn_of_goodFrame h).1]
    have : ¬ e ≤ 47 := by omega
    simp [classOfNormal, this]
end

/-! ### The effect of a frame by link state -/

/-- RACK_FRAME_ARRIVAL changes its screen port by `takeFrame` and nothing else (R30). -/
theorem exec_rackFrame {s : State} (hp : s.powered = true) (n : Fin 8) (f : LinkFrame 1) {y : ScreenPort}
    (h : s.screens[n].link.takeFrame f = y) :
    exec (.rackFrameArrival n f) s = .next (s.modLink n fun _ => y) := by
  subst h
  exact live_on hp fun s => s.modLink n (ScreenPort.takeFrame f)

section
variable {x : ScreenPort} {f : LinkFrame 1} {cls : FrameClass} {slot : Slot}

theorem takeFrame_hunting (hl : x.link = .hunt) (hc : classifyReturn x.expected f = cls) :
    x.takeFrame f = x.takeHunting cls (nextExpected x.expected cls (headerIndex f.header)) := by
  simp [ScreenPort.takeFrame, hl, hc]

theorem takeFrame_linked (hl : x.link ≠ .hunt) (hc : classifyReturn x.expected f = cls) :
    x.takeFrame f = x.takeLinked cls f.slots[0] (nextExpected x.expected cls (headerIndex f.header)) := by
  subst hc
  unfold ScreenPort.takeFrame
  split
  · contradiction
  all_goals rfl

/-- Fewer than four good frames in a row only set the run (R31). -/
theorem takeHunting_short {next : Option Nat} (h : nextGoodRun x.goodRun cls ≤ 3) : x.takeHunting cls next =
    { x with goodRun := nextGoodRun x.goodRun cls, expected := if nextGoodRun x.goodRun cls = 0 then none else next } := by
  have : ¬ 4 ≤ nextGoodRun x.goodRun cls := by omega
  simp [ScreenPort.takeHunting, this]

/-- The fourth good frame in a row enters EXCHANGE (R31). -/
theorem takeHunting_fourth {next : Option Nat} (h : x.goodRun = 3) : x.takeHunting .good next =
    { x with link := .exchange, goodRun := 0, missRun := 0, expected := next, attempt := none, echo := false
             lastToggle := false, identSeen := false, timer := 250 } := by
  simp [ScreenPort.takeHunting, nextGoodRun, h, ScreenPort.enterExchange, exchangeTime]

/-- The third MISS or MISPLACED frame in a row enters HUNT and counts one link drop (R32). -/
theorem takeLinked_drops {next : Option Nat} (hc : cls = .miss ∨ cls = .misplaced) (h : 2 ≤ x.missRun) :
    x.takeLinked cls slot next = { huntLink x with linkDrops := oneMore x.linkDrops } := by
  have hrun : nextMissRun x.missRun cls = x.missRun + 1 := by rcases hc with rfl | rfl <;> rfl
  have : 3 ≤ x.missRun + 1 := by omega
  simp [ScreenPort.takeLinked, hrun, this, ScreenPort.enterHunt, huntLink, allAbsent, oneMore, bump]

/-- Below the third, the frame's slot is taken at the index that was expected (R32, R33). -/
theorem takeLinked_slot {next : Option Nat} {i run : Nat} (hi : x.expected = some i) (hrun : nextMissRun x.missRun cls = run)
    (h : run ≤ 2) :
    x.takeLinked cls slot next = { x with missRun := run, expected := next }.takeSlot cls slot i := by
  have : ¬ 3 ≤ run := by omega
  simp [ScreenPort.takeLinked, hrun, this, hi]

/-! ### The page attempt -/

theorem allKnown_eq_some {α : Type} {l : List (Option α)} {k : List α} : allKnown l = some k ↔ l = k.map some := by
  induction l generalizing k with
  | nil => cases k <;> simp [allKnown]
  | cons a l ih =>
    cases a with
    | none => cases k <;> simp [allKnown]
    | some a => cases k <;> simp [allKnown, ih, and_comm]

/-- The page attempt after the slot of expected index `i`, where no page is completed (R33). -/
def notedSlot (i : Nat) (slot : Option Slot) (attempt : Option (List (Option Slot))) : Option (List (Option Slot)) :=
  if i = 0 then some [slot] else if i ≤ 2 then attempt.map fun l => l ++ [slot] else if i = 3 then none else attempt

theorem attempt_self {attempt : Option (List (Option Slot))} (h : x.attempt = attempt) : { x with attempt } = x := by
  subst h
  rfl

/-- A MISPLACED frame within a page ends the attempt (R33). -/
theorem takeSlot_misplaced (i : Nat) :
    x.takeSlot .misplaced slot i = { x with attempt := if i ≤ 3 then none else x.attempt } := by
  unfold ScreenPort.takeSlot
  by_cases h0 : i = 0
  · simp [h0]
  · cases ha : x.attempt with
    | none => simp [h0, attempt_self ha]
    | some l => by_cases h3 : i ≤ 3 <;> simp [h0, h3, Nat.lt_of_not_le, attempt_self ha]

/-- A slot that completes no good page is noted; at index 3 the attempt ends as a bad page (R33). -/
theorem takeSlot_noted {i : Nat} (hc : cls ≠ .misplaced)
    (h3 : i = 3 → ∀ l : List (Option Slot), x.attempt = some l → (allKnown (l ++ [slotOf cls slot])).bind parsePage = none) :
    x.takeSlot cls slot i = { x with attempt := notedSlot i (slotOf cls slot) x.attempt } := by
  unfold ScreenPort.takeSlot notedSlot
  by_cases h0 : i = 0
  · simp [h0, hc]
  · cases ha : x.attempt with
    | none => simp [h0, attempt_self ha]
    | some l =>
      rcases Nat.lt_trichotomy i 3 with hlt | rfl | hgt
      · have : ¬ 3 < i := by omega
        simp [h0, hc, this, Nat.le_of_lt_succ hlt, Nat.ne_of_lt hlt]
      · simp [hc, h3 rfl l ha]
      · have : ¬ i ≤ 2 := by omega
        simp [h0, hgt, this, Nat.ne_of_gt hgt, attempt_self ha]

/-- An unknown slot at index 3 completes no page (R33). -/
theorem takeSlot_unknown {i : Nat} (hc : cls = .miss ∨ cls = .checkError) :
    x.takeSlot cls slot i = { x with attempt := notedSlot i none x.attempt } := by
  have hs : slotOf cls slot = none := by rcases hc with rfl | rfl <;> rfl
  have hunknown : ∀ l : List (Option Slot), allKnown (l ++ [none]) = none := fun l => by
    rw [Option.eq_none_iff_forall_ne_some]
    intro k hk
    have : none ∈ k.map some := by simp [← allKnown_eq_some.1 hk]
    simp at this
  have hm : cls ≠ .misplaced := by rcases hc with rfl | rfl <;> simp
  rw [takeSlot_noted hm fun _ l _ => by rw [hs, hunknown]; rfl, hs]

/-- Four known slots that make no good page end the attempt (R33). -/
theorem takeSlot_badPage
    (h : ∀ l : List Slot, x.attempt = some (l.map some) → parsePage (l ++ [slot]) = none) :
    x.takeSlot .good slot 3 = { x with attempt := none } := by
  refine takeSlot_noted (by simp) fun _ l hl => ?_
  rw [Option.bind_eq_none_iff]
  intro k hk
  have hk := allKnown_eq_some.1 hk
  rcases List.eq_nil_or_concat k with rfl | ⟨k, a, rfl⟩
  · simp at hk
  · simp only [slotOf, List.concat_eq_append, List.map_append, List.map_cons, List.map_nil] at hk
    obtain ⟨rfl, ha⟩ := List.append_inj' hk rfl
    obtain rfl : slot = a := by simpa using ha
    simpa using h k hl

/-- Four known slots that make a good page hand it on (R33). -/
theorem takeSlot_page {a b c : Slot} {pg : Page} (ha : x.attempt = some [some a, some b, some c])
    (hp : parsePage [a, b, c, slot] = some pg) : x.takeSlot .good slot 3 = { x with attempt := none }.takePage pg := by
  simp [ScreenPort.takeSlot, ha, slotOf, allKnown, hp]

/-! ### Pages -/

section
variable {pg : Page} {rack : Word} {count : Nat} {states : Vector ChannelState 16}

/-- A page with the old toggle changes nothing (R34, R36). -/
theorem takePage_oldToggle (h : pg.toggle = x.lastToggle) : x.takePage pg = x := by
  unfold ScreenPort.takePage
  split
  · rfl
  · simp [ScreenPort.pageInExchange, h]
  · simp [ScreenPort.pageInUp, h]

/-- An IDENT page whose channel count is not 1 to 16 changes nothing (R34, R37). -/
theorem takePage_badIdent (hp : pg.content = .ident rack count) (h : count = 0 ∨ 17 ≤ count) : x.takePage pg = x := by
  have : ¬ (1 ≤ count ∧ count ≤ 16) := by omega
  unfold ScreenPort.takePage
  split
  · rfl
  · simp [ScreenPort.pageInExchange, hp, this]
  · simp [ScreenPort.pageInUp, hp, this]

/-- A new IDENT page in EXCHANGE gives the rack identity (R34). -/
theorem takePage_exchange_ident (hl : x.link = .exchange) (ht : pg.toggle ≠ x.lastToggle) (hp : pg.content = .ident rack count)
    (h : 1 ≤ count ∧ count ≤ 16) : x.takePage pg =
      { x with echo := pg.toggle, lastToggle := pg.toggle, rackId := some rack, channelCount := some count
               identSeen := true, timer := 250 } := by
  simp [ScreenPort.takePage, hl, ScreenPort.pageInExchange, ht, hp, h, ScreenPort.accept, exchangeTime]

/-- A CHANNELS page before any IDENT page changes nothing (R34). -/
theorem takePage_exchange_early (hl : x.link = .exchange) (hp : pg.content = .channels states) (hi : x.identSeen = false) :
    x.takePage pg = x := by
  simp [ScreenPort.takePage, hl, ScreenPort.pageInExchange, hp, hi]

/-- A new CHANNELS page after an IDENT page gives the channel states, and waits for more where it is not marked LAST (R34). -/
theorem takePage_exchange_more (hl : x.link = .exchange) (ht : pg.toggle ≠ x.lastToggle) (hp : pg.content = .channels states)
    (hi : x.identSeen = true) (h : pg.last = false) : x.takePage pg =
      { x with echo := pg.toggle, lastToggle := pg.toggle, stored := states, timer := 250 } := by
  simp [ScreenPort.takePage, hl, ScreenPort.pageInExchange, ht, hp, hi, h, ScreenPort.accept, exchangeTime]

/-- A new CHANNELS page after an IDENT page, marked LAST, gives the channel states and enters UP (R34). -/
theorem takePage_exchange_last (hl : x.link = .exchange) (ht : pg.toggle ≠ x.lastToggle) (hp : pg.content = .channels states)
    (hi : x.identSeen = true) (h : pg.last = true) : x.takePage pg =
      { x with echo := pg.toggle, lastToggle := pg.toggle, stored := states, link := .up, missRun := 0, timer := 0 } := by
  simp [ScreenPort.takePage, hl, ScreenPort.pageInExchange, ht, hp, hi, h, ScreenPort.accept]

/-- A new CHANNELS page in UP gives the channel states (R36). -/
theorem takePage_up_channels (hl : x.link = .up) (ht : pg.toggle ≠ x.lastToggle) (hp : pg.content = .channels states) :
    x.takePage pg = { x with echo := pg.toggle, lastToggle := pg.toggle, stored := states } := by
  simp [ScreenPort.takePage, hl, ScreenPort.pageInUp, ht, hp, ScreenPort.accept]

/-- A new IDENT page in UP enters EXCHANGE again with every state ABSENT (R37). -/
theorem takePage_up_ident (hl : x.link = .up) (ht : pg.toggle ≠ x.lastToggle) (hp : pg.content = .ident rack count)
    (h : 1 ≤ count ∧ count ≤ 16) : x.takePage pg =
      { x with echo := pg.toggle, lastToggle := pg.toggle, rackId := some rack, channelCount := some count
               identSeen := true, timer := 250, link := .exchange, stored := Vector.replicate 16 .absent } := by
  simp [ScreenPort.takePage, hl, ScreenPort.pageInUp, ht, hp, h, ScreenPort.accept, exchangeTime, allAbsent]

end

/-! ### Whole frames -/

section
variable {e i : Nat}

/-- A GOOD frame in HUNT, below the fourth in a row (R31). -/
theorem takeFrame_hunting_good (hl : x.link = .hunt) (hf : GoodFrame f e)
    (hx : x.expected = some e ∨ (x.expected = none ∧ e ≤ 47)) (hrun : x.goodRun ≤ 2) :
    x.takeFrame f = { x with goodRun := x.goodRun + 1, expected := some ((e + 1) % 48) } := by
  rw [takeFrame_hunting hl (classifyReturn_good hf hx), takeHunting_short (by simp only [nextGoodRun]; omega)]
  simp [nextGoodRun, nextExpected, hf.2.2]

/-- The fourth GOOD frame in a row in HUNT (R31). -/
theorem takeFrame_hunting_fourth (hl : x.link = .hunt) (hf : GoodFrame f e)
    (hx : x.expected = some e ∨ (x.expected = none ∧ e ≤ 47)) (hrun : x.goodRun = 3) :
    x.takeFrame f = { x with link := .exchange, goodRun := 0, missRun := 0, expected := some ((e + 1) % 48), attempt := none
                             echo := false, lastToggle := false, identSeen := false, timer := 250 } := by
  rw [takeFrame_hunting hl (classifyReturn_good hf hx), takeHunting_fourth hrun]
  simp [nextExpected, hf.2.2]

/-- A MISPLACED frame in HUNT begins the run anew (R31). -/
theorem takeFrame_hunting_misplaced (hl : x.link = .hunt) (hf : GoodFrame f e) (hx : x.expected = some i) (hne : e ≠ i) :
    x.takeFrame f = { x with goodRun := 1, expected := some ((e + 1) % 48) } := by
  rw [takeFrame_hunting hl (classifyReturn_misplaced hf hx hne), takeHunting_short (by simp [nextGoodRun])]
  simp [nextGoodRun, nextExpected, hf.2.2]

/-- A MISS or CHECK ERROR in HUNT ends the run (R31). -/
theorem takeFrame_hunting_lost (hl : x.link = .hunt)
    (hc : classifyReturn x.expected f = .miss ∨ classifyReturn x.expected f = .checkError) :
    x.takeFrame f = { x with goodRun := 0, expected := none } := by
  rcases hc with hc | hc <;> rw [takeFrame_hunting hl hc, takeHunting_short (by simp [nextGoodRun])] <;> simp [nextGoodRun]

/-- The third MISS or MISPLACED frame in a row in EXCHANGE or UP (R32). -/
theorem takeFrame_drops (hl : x.link ≠ .hunt)
    (hc : classifyReturn x.expected f = .miss ∨ classifyReturn x.expected f = .misplaced) (hrun : 2 ≤ x.missRun) :
    x.takeFrame f = { huntLink x with linkDrops := oneMore x.linkDrops } := by
  rw [takeFrame_linked hl rfl, takeLinked_drops hc hrun]

/-- A frame without normal sync in EXCHANGE or UP, below the third miss in a row (R32, R33). -/
theorem takeFrame_noSync (hl : x.link ≠ .hunt) (hx : x.expected = some i) (hs : headerSync f.header ≠ 0xA7)
    (hrun : x.missRun ≤ 1) : x.takeFrame f =
      { x with missRun := x.missRun + 1, expected := some ((i + 1) % 48), attempt := notedSlot i none x.attempt } := by
  rw [takeFrame_linked hl (classifyReturn_noSync hs), takeLinked_slot hx rfl (by simp only [nextMissRun]; omega),
    takeSlot_unknown (.inl rfl)]
  simp [nextMissRun, nextExpected, hx]

/-- A MISPLACED frame in EXCHANGE or UP, below the third miss in a row (R32, R33). -/
theorem takeFrame_misplaced (hl : x.link ≠ .hunt) (hx : x.expected = some i) (hf : GoodFrame f e) (hne : e ≠ i)
    (hrun : x.missRun ≤ 1) : x.takeFrame f =
      { x with missRun := x.missRun + 1, expected := some ((e + 1) % 48), attempt := if i ≤ 3 then none else x.attempt } := by
  rw [takeFrame_linked hl (classifyReturn_misplaced hf hx hne), takeLinked_slot hx rfl (by simp only [nextMissRun]; omega),
    takeSlot_misplaced]
  simp [nextMissRun, nextExpected, hf.2.2]

/-- A CHECK ERROR frame in EXCHANGE or UP (R32, R33). -/
theorem takeFrame_badCheck (hl : x.link ≠ .hunt) (hx : x.expected = some i) (hb : BadCheckFrame f) : x.takeFrame f =
    { x with missRun := 0, expected := some ((i + 1) % 48), attempt := notedSlot i none x.attempt } := by
  rw [takeFrame_linked hl (classifyReturn_badCheck hb), takeLinked_slot hx rfl (by simp [nextMissRun]),
    takeSlot_unknown (.inr rfl)]
  simp [nextMissRun, nextExpected, hx]

/-- A GOOD frame in EXCHANGE or UP whose slot ends no page (R32, R33). -/
theorem takeFrame_good (hl : x.link ≠ .hunt) (hx : x.expected = some i) (hf : GoodFrame f i) (hi : i ≠ 3) : x.takeFrame f =
    { x with missRun := 0, expected := some ((i + 1) % 48), attempt := notedSlot i (some f.slots[0]) x.attempt } := by
  rw [takeFrame_linked hl (classifyReturn_good hf (.inl hx)), takeLinked_slot hx rfl (by simp [nextMissRun]),
    takeSlot_noted (by simp) fun h => absurd h hi]
  simp [nextMissRun, nextExpected, hf.2.2, slotOf]

/-- A GOOD frame of index 3 that ends a bad page (R33). -/
theorem takeFrame_badPage (hl : x.link ≠ .hunt) (hx : x.expected = some 3) (hf : GoodFrame f 3)
    (h : ∀ l : List Slot, x.attempt = some (l.map some) → parsePage (l ++ [f.slots[0]]) = none) : x.takeFrame f =
    { x with missRun := 0, expected := some 4, attempt := none } := by
  rw [takeFrame_linked hl (classifyReturn_good hf (.inl hx)), takeLinked_slot hx rfl (by simp [nextMissRun]),
    takeSlot_badPage (by exact h)]
  simp [nextMissRun, nextExpected, hf.2.2]

/-- A GOOD frame of index 3 that completes a good page hands it on (R33). -/
theorem takeFrame_page {a b c : Slot} {pg : Page} (hl : x.link ≠ .hunt) (hf : GoodFrame f 3) (hx : x.expected = some 3)
    (ha : x.attempt = some [some a, some b, some c]) (hp : parsePage [a, b, c, f.slots[0]] = some pg) :
    x.takeFrame f = { x with missRun := 0, expected := some 4, attempt := none }.takePage pg := by
  rw [takeFrame_linked hl (classifyReturn_good hf (.inl hx)), takeLinked_slot hx rfl (by simp [nextMissRun]),
    takeSlot_page (by exact ha) hp]
  simp [nextMissRun, nextExpected, hf.2.2]

end
end

/-! ### The statement -/

/-- Settles O44: each clause is the equation of its frame, carried to the part by `exec_rackFrame`. -/
theorem rackFramesLockAndCarryPages : Obligations.RackFramesLockAndCarryPages := by
  intro n f e s hp
  have frame {y : ScreenPort} (h : s.screens[n].link.takeFrame f = y) := exec_rackFrame hp n f h
  refine ⟨fun hl => ⟨fun ⟨hf, hx⟩ hrun => frame ?_, fun ⟨hf, hx⟩ hrun => frame ?_, fun ⟨i, hf, hx, hne⟩ => frame ?_,
      fun h => frame ?_⟩,
    fun hl h hrun => frame ?_,
    fun hl i hx => ⟨fun hs hrun => frame ?_, fun ⟨j, hf, hj, hne⟩ hrun => frame ?_, fun hb => frame ?_,
      fun hf hi => frame ?_, fun hf hi hbad => frame ?_⟩,
    fun a b c pg hl hf hx ha hpg => ?_⟩
  · exact takeFrame_hunting_good hl hf hx hrun
  · exact takeFrame_hunting_fourth hl hf hx hrun
  · exact takeFrame_hunting_misplaced hl hf hx hne
  · exact takeFrame_hunting_lost hl (h.imp classifyReturn_miss classifyReturn_badCheck)
  · exact takeFrame_drops hl (h.imp classifyReturn_miss fun ⟨_, hf, hx, hne⟩ => classifyReturn_misplaced hf hx hne) hrun
  · exact takeFrame_noSync hl hx hs hrun
  · obtain rfl : i = j := Option.some.inj (hx.symm.trans hj)
    exact takeFrame_misplaced hl hx hf hne hrun
  · exact takeFrame_badCheck hl hx hb
  · exact takeFrame_good hl hx hf hi
  · subst hi
    exact takeFrame_badPage hl hx hf hbad
  · have page {y : ScreenPort} (h : _ = y) := frame ((takeFrame_page hl hf hx ha hpg).trans h)
    exact ⟨fun ht => page (takePage_oldToggle ht), fun ht => ⟨
      fun rack count hl hc h1 h16 => page (takePage_exchange_ident hl ht hc ⟨h1, h16⟩),
      fun rack count hc hbad => page (takePage_badIdent hc hbad),
      fun states hl hc hi => page (takePage_exchange_early hl hc hi),
      fun states hl hc hi hlast => page (takePage_exchange_more hl ht hc hi hlast),
      fun states hl hc hi hlast => page (takePage_exchange_last hl ht hc hi hlast),
      fun states hl hc => page (takePage_up_channels hl ht hc),
      fun rack count hl hc h1 h16 => page (takePage_up_ident hl ht hc ⟨h1, h16⟩)⟩⟩

end Sys2Proof.Machine
end

-- Proofs/BoundaryScreens: what a master block boundary makes of one screen
section
/-! The boundary acts on every screen in turn, and several times over. `OnEach` says what an operation of that kind is, so that
its run over the eight screens is read off once; `Screen.throughBoundary` is the boundary's whole work on one screen, in the order
of assumption log 5, and `boundary_screens` ties it to `State.boundary`. -/

namespace Sys2Proof.Machine

/-! ### What the screens' operations read besides their screen -/

/-- Two states with the same ports, format table, block counter and shares taken. -/
structure SameParts (s t : State) : Prop where
  ports : t.ports = s.ports
  loaded : t.loaded = s.loaded
  counter : t.blockCounter = s.blockCounter
  taken : t.taken = s.taken

theorem SameParts.refl (s : State) : SameParts s s := ⟨rfl, rfl, rfl, rfl⟩

theorem SameParts.trans {s t u : State} (h : SameParts s t) (k : SameParts t u) : SameParts s u :=
  ⟨k.ports.trans h.ports, k.loaded.trans h.loaded, k.counter.trans h.counter, k.taken.trans h.taken⟩

theorem SameParts.portIs {s t : State} (h : SameParts s t) : t.portIs = s.portIs := by
  funext p st
  simp only [State.portIs, h.ports]

theorem format?_of_loaded {s t : State} (h : t.loaded = s.loaded) : t.format? = s.format? := by
  funext tag
  simp only [State.format?, h]

theorem validTag_of_loaded {s t : State} (h : t.loaded = s.loaded) : t.validTag = s.validTag := by
  funext tag
  simp only [State.validTag, format?_of_loaded h]

/-- A port is in a state exactly when it is configured and in it. -/
theorem portIs_iff (s : State) (p : Option (Fin 12)) (st : PortState) :
    s.portIs p st = true ↔ ∃ q, p = some q ∧ s.ports[q].state = st := by
  cases p <;> simp [State.portIs]

/-- A repetition over items keeps what is kept at each item. -/
theorem forEach_keeps {α : Type} {R : State → State → Prop} (refl : ∀ s, R s s) (trans : ∀ s t u, R s t → R t u → R s u)
    (f : α → State → State) (h : ∀ a s, R s (f a s)) (items : List α) (s : State) : R s (forEach items f s) := by
  induction items generalizing s with
  | nil => exact refl s
  | cons a items ih => exact trans _ _ _ (h a s) (ih (f a s))

/-! ### An operation on one screen, repeated over all -/

/-- With no share taken ahead, `f n` makes `g` of screen `n`, and leaves every other screen and the parts that `g` reads. -/
structure OnEach (f : Fin 8 → State → State) (g : State → Screen → Screen) : Prop where
  parts : ∀ n t, t.taken = [] → SameParts t (f n t)
  own : ∀ n t, t.taken = [] → (f n t).screens[n] = g t t.screens[n]
  other : ∀ n m t, t.taken = [] → m ≠ n → (f n t).screens[m] = t.screens[m]
  reads : ∀ s t x, SameParts s t → g t x = g s x

section
variable {f : Fin 8 → State → State} {g : State → Screen → Screen}

/-- An update of one screen is such an operation. -/
theorem onEach_modScreen (h : ∀ n t, t.taken = [] → f n t = t.modScreen n (g t))
    (reads : ∀ s t x, SameParts s t → g t x = g s x) : OnEach f g where
  parts n t ht := h n t ht ▸ ⟨rfl, rfl, rfl, rfl⟩
  own n t ht := by
    rw [h n t ht]
    exact State.modScreen_same t n (g t)
  other n m t ht hm := by
    rw [h n t ht]
    exact State.modScreen_other t n m (g t) hm
  reads := reads

theorem onEach_forEach (h : OnEach f g) (items : List (Fin 8)) (hd : items.Nodup) (s : State) (ht : s.taken = []) :
    SameParts s (forEach items f s) ∧
      ∀ n : Fin 8, (forEach items f s).screens[n] = if n ∈ items then g s s.screens[n] else s.screens[n] := by
  induction items generalizing s with
  | nil => exact ⟨.refl s, fun n => rfl⟩
  | cons a items ih =>
    obtain ⟨ha, hd⟩ := List.nodup_cons.1 hd
    have hfirst := h.parts a s ht
    obtain ⟨hparts, hscreens⟩ := ih hd (f a s) (hfirst.taken.trans ht)
    refine ⟨hfirst.trans hparts, fun n => (hscreens n).trans ?_⟩
    rw [h.reads _ _ _ hfirst]
    by_cases hn : n = a
    · subst hn
      simp only [ha, if_false, List.mem_cons_self, if_true, h.own n s ht]
    · simp only [List.mem_cons, hn, false_or, h.other a n s ht hn]

/-- The run over the eight screens makes `g` of each of them. -/
theorem onEach_forScreens (h : OnEach f g) (s : State) (ht : s.taken = []) :
    SameParts s (forScreens f s) ∧ ∀ n : Fin 8, (forScreens f s).screens[n] = g s s.screens[n] := by
  obtain ⟨hparts, hscreens⟩ := onEach_forEach h (List.finRange 8) (List.nodup_finRange 8) s ht
  exact ⟨hparts, fun n => (hscreens n).trans (if_pos (List.mem_finRange n))⟩
end

/-- Two updates of one screen that agree on it are one. -/
theorem modScreen_congr {s : State} {n : Fin 8} {f g : Screen → Screen} (h : f s.screens[n] = g s.screens[n]) :
    s.modScreen n f = s.modScreen n g := by
  simp only [State.modScreen, h]

/-- An update that leaves the screen as it is leaves the state. -/
theorem modScreen_self {s : State} {n : Fin 8} {f : Screen → Screen} (h : f s.screens[n] = s.screens[n]) : s.modScreen n f = s := by
  have hset : s.screens.set n.val (f s.screens[n]) = s.screens := by
    rw [h]
    exact Vector.set_getElem_self n.isLt
  simp only [State.modScreen, hset]

/-- Two updates of one screen in turn are one. -/
theorem modScreen_modScreen (s : State) (n : Fin 8) (f g : Screen → Screen) :
    (s.modScreen n f).modScreen n g = s.modScreen n fun x => g (f x) := by
  simp [State.modScreen]

/-! ### What is due before the boundary -/

/-- A screen after steps that were due: its engine, its pending set, its mark queue and its notice unit may have changed, and no id
has become pending. -/
structure AfterDue (x y : Screen) : Prop where
  ctx : y.ctx = x.ctx
  link : y.link = x.link
  dec : y.dec = x.dec
  cues : y.cues = x.cues
  quiet : y.quiet = x.quiet
  mon : y.mon = { x.mon with pending := y.mon.pending, marks := y.mon.marks }
  pending : ∀ id : Fin 54, x.mon.pending[id] = none → y.mon.pending[id] = none

theorem AfterDue.refl (x : Screen) : AfterDue x x := ⟨rfl, rfl, rfl, rfl, rfl, rfl, fun _ h => h⟩

theorem AfterDue.trans {x y z : Screen} (h : AfterDue x y) (k : AfterDue y z) : AfterDue x z where
  ctx := k.ctx.trans h.ctx
  link := k.link.trans h.link
  dec := k.dec.trans h.dec
  cues := k.cues.trans h.cues
  quiet := k.quiet.trans h.quiet
  mon := by rw [k.mon, h.mon]
  pending id hid := k.pending id (h.pending id hid)

/-- Steps that were due leave the parts, no reset pending, and each screen as `AfterDue` says. -/
structure DueTaken (s t : State) : Prop where
  parts : SameParts s t
  reset : s.resetPending = none → t.resetPending = none
  screens : ∀ n : Fin 8, AfterDue s.screens[n] t.screens[n]

theorem DueTaken.refl (s : State) : DueTaken s s := ⟨.refl s, fun h => h, fun _ => .refl _⟩

theorem DueTaken.trans (s t u : State) (h : DueTaken s t) (k : DueTaken t u) : DueTaken s u :=
  ⟨h.parts.trans k.parts, fun hr => k.reset (h.reset hr), fun n => (h.screens n).trans (k.screens n)⟩

theorem dueTaken_modScreen {s : State} (n : Fin 8) (f : Screen → Screen) (h : AfterDue s.screens[n] (f s.screens[n])) :
    DueTaken s (s.modScreen n f) := by
  refine ⟨⟨rfl, rfl, rfl, rfl⟩, fun hr => hr, fun m => ?_⟩
  simp only [Fin.getElem_fin, State.modScreen_get]
  split
  · next hm => subst hm; exact h
  · exact .refl _

theorem dueTaken_modArb (s : State) (p : Fin 12) (f : Arbiter → Arbiter) : DueTaken s (s.modArb p f) :=
  ⟨⟨rfl, rfl, rfl, rfl⟩, fun hr => hr, fun _ => .refl _⟩

theorem dueTaken_resetDue (s : State) : DueTaken s s.resetDue :=
  ⟨⟨rfl, rfl, rfl, rfl⟩, fun hr => by simp [State.resetDue, hr], fun _ => .refl _⟩

theorem dueTaken_messageSent (p : Fin 12) (s : State) : DueTaken s (s.messageSent p) := by
  unfold State.messageSent State.freeChannel
  split
  · next m _ =>
    split
    · refine .trans _ _ _ (dueTaken_modArb s p fun a => { a with channel := none }) ?_
      cases m.owner with
      | resp =>
        simp only
        split
        · exact dueTaken_resetDue _
        · exact .refl _
      | screen n => exact dueTaken_modScreen n _ ⟨rfl, rfl, rfl, rfl, rfl, rfl, fun _ h => h⟩
    · exact .refl s
  · exact .refl s

theorem dueTaken_endCrossfade (n : Fin 8) (s : State) : DueTaken s (s.endCrossfade n) := by
  unfold State.endCrossfade
  split
  · exact dueTaken_modScreen n _ ⟨rfl, rfl, rfl, rfl, rfl, rfl, fun _ h => h⟩
  · exact .refl s

/-- An alarm that is a candidate for a notice is pending and not noticed (R161). -/
theorem alarmCandidate_pending {x : Screen} {id : Fin 54} (h : x.alarmCandidate = some id) : x.mon.pending[id] = some false := by
  unfold Screen.alarmCandidate at h
  refine List.foldlRecOn (motive := fun best => ∀ i, best = some i → x.mon.pending[i] = some false) _ _ (fun i hi => by cases hi)
    (fun best hbest a _ i hi => ?_) id h
  split at hi
  · next ha =>
    split at hi
    · obtain rfl := Option.some.inj hi
      exact ha.1
    · split at hi
      · obtain rfl := Option.some.inj hi
        exact ha.1
      · exact hbest i hi
  · exact hbest i hi

/-- The alarm that a notice is chosen for was pending (R161, R162). -/
theorem candidate_alarm_pending {x : Screen} {id : Fin 54} {level : Nat} (h : x.candidate = some (.alarm id, level)) :
    x.mon.pending[id] = some false := by
  unfold Screen.candidate at h
  split at h
  · next hid _ =>
    split at h
    · cases h; exact alarmCandidate_pending hid
    · cases h
  · next hid _ => cases h; exact alarmCandidate_pending hid
  · cases h
  · cases h

theorem dueTaken_choose (n : Fin 8) (s : State) : DueTaken s (s.choose n) := by
  unfold State.choose
  simp only
  split
  · next src level _ _ hc =>
    refine dueTaken_modScreen n _ ?_
    cases src with
    | mark cue => exact ⟨rfl, rfl, rfl, rfl, rfl, rfl, fun _ h => h⟩
    | alarm id =>
      refine ⟨rfl, rfl, rfl, rfl, rfl, rfl, fun i hi => ?_⟩
      have hne : id.val ≠ i.val := fun he => by
        obtain rfl := Fin.ext he
        rw [candidate_alarm_pending hc] at hi
        cases hi
      simpa [Monitor.noticed, Vector.getElem_set_ne _ _ hne] using hi
  · exact .refl s

/-- With no reset pending, what is due before a boundary is sent messages, ended crossfades and choices of notice. -/
theorem dueTaken_settleDue {s : State} (hr : s.resetPending = none) : DueTaken s s.settleDue := by
  have hsent : DueTaken s (forPorts State.messageSent s) := forEach_keeps .refl .trans _ dueTaken_messageSent _ s
  have hreset : (forPorts State.messageSent s).takeDueReset = forPorts State.messageSent s := by
    simp [State.takeDueReset, hsent.reset hr]
  unfold State.settleDue
  rw [hreset]
  generalize forPorts State.messageSent s = sent at hsent
  have hended : DueTaken sent (forScreens State.endCrossfade sent) := forEach_keeps .refl .trans _ dueTaken_endCrossfade _ sent
  generalize forScreens State.endCrossfade sent = ended at hended
  have hchosen : DueTaken ended (forScreens State.choose ended) := forEach_keeps .refl .trans _ dueTaken_choose _ ended
  exact .trans _ _ _ hsent (.trans _ _ _ hended hchosen)

/-! ### The ports' share, and the loss of a port as a screen hears it -/

/-- The coming boundary takes the port from HOLDOVER to LOST (R5). -/
def Port.expires (x : Port) : Bool := x.state == .holdover && decide (x.holdoverLeft ≤ 1)

/-- A screen hears that a port has entered LOST (R49, R50). -/
def Screen.hearLoss (p : Fin 12) (x : Screen) : Screen :=
  if x.ctx.primary = some p then { x with ctx := x.ctx.armFailover } else x

theorem hearLoss_other {p : Fin 12} {x : Screen} (h : x.ctx.primary ≠ some p) : x.hearLoss p = x := if_neg h

theorem onEach_hearLoss (p : Fin 12) : OnEach (State.hearAnnouncement p .lost) fun _ => Screen.hearLoss p := by
  refine onEach_modScreen (fun n t _ => ?_) fun _ _ _ _ => rfl
  by_cases h : t.screens[n].ctx.primary = some p
  · simp only [State.hearAnnouncement, h, if_true]
    exact modScreen_congr (if_pos h).symm
  · simp only [State.hearAnnouncement, h, if_false]
    exact (modScreen_self (hearLoss_other h)).symm

/-- `t` is `s` after work on port `p`, as far as the boundary reads it: other ports stay, and each screen becomes `g` of it. -/
structure OnPort (p : Fin 12) (g : Screen → Screen) (s t : State) : Prop where
  loaded : t.loaded = s.loaded
  counter : t.blockCounter = s.blockCounter
  taken : t.taken = s.taken
  other : ∀ q : Fin 12, q ≠ p → t.ports[q] = s.ports[q]
  screens : ∀ n : Fin 8, t.screens[n] = g s.screens[n]

theorem OnPort.refl (p : Fin 12) (s : State) : OnPort p id s s := ⟨rfl, rfl, rfl, fun _ _ => rfl, fun _ => rfl⟩

theorem OnPort.trans {p : Fin 12} {g : Screen → Screen} {s t u : State} (h : OnPort p g s t) (k : OnPort p id t u) :
    OnPort p g s u :=
  ⟨k.loaded.trans h.loaded, k.counter.trans h.counter, k.taken.trans h.taken,
    fun q hq => (k.other q hq).trans (h.other q hq), fun n => (k.screens n).trans (h.screens n)⟩

theorem onPort_modPort (s : State) (p : Fin 12) (f : Port → Port) : OnPort p id s (s.modPort p f) :=
  ⟨rfl, rfl, rfl, fun q hq => State.modPort_other s p q f hq, fun _ => rfl⟩

theorem unlessTaken_none {s : State} (h : s.taken = []) (x : Share) (f : State → State) : s.unlessTaken x f = f s := by
  simp [State.unlessTaken, h]

theorem onPort_tickHoldover (p : Fin 12) {s : State} (ht : s.taken = []) :
    OnPort p (fun x => if s.ports[p].expires then x.hearLoss p else x) s (s.tickHoldover p) := by
  unfold State.tickHoldover
  by_cases hs : s.ports[p].state = .holdover
  · by_cases hl : s.ports[p].holdoverLeft ≤ 1
    · have he : s.ports[p].expires = true := by simp_all [Port.expires]
      have hm := onPort_modPort s p fun x => { x with state := .lost, holdoverLeft := 0 }
      obtain ⟨hparts, hscreens⟩ := onEach_forScreens (onEach_hearLoss p) _ (hm.taken.trans ht)
      simp only [hs, hl, he, if_true]
      refine ⟨hparts.loaded, hparts.counter, hparts.taken, fun q hq => ?_, hscreens⟩
      rw [State.loseHoldover, State.announce, hparts.ports]
      exact hm.other q hq
    · have he : s.ports[p].expires = false := by simp_all [Port.expires]
      simp only [hs, hl, he, if_true, if_false]
      exact onPort_modPort s p _
  · have he : s.ports[p].expires = false := by simp_all [Port.expires]
    simp only [hs, he, if_false]
    exact .refl p s

theorem onPort_tickAssembly (counter : Long) (p : Fin 12) (s : State) : OnPort p id s (s.tickAssembly counter p) := by
  unfold State.tickAssembly State.timeoutMessage State.discardMessage State.offerError State.count
  split
  · split
    · split
      · exact ((onPort_modPort s p _).trans (onPort_modPort _ p _)).trans (onPort_modPort _ p _)
      · exact onPort_modPort s p _
    · exact .refl p s
  · exact .refl p s

/-- A port's share of the boundary reaches the screens only as the announcement of its loss (R5, R8). -/
theorem onPort_tickPort {s : State} (ht : s.taken = []) (counter : Long) (p : Fin 12) :
    OnPort p (fun x => if s.ports[p].expires then x.hearLoss p else x) s (s.tickPort counter p) := by
  have hold := onPort_tickHoldover p ht
  have hwindow := hold.trans (onPort_modPort _ p Port.tickWindow)
  unfold State.tickPort
  rw [unlessTaken_none ht, unlessTaken_none (hold.taken.trans ht), unlessTaken_none (hwindow.taken.trans ht)]
  exact hwindow.trans (onPort_tickAssembly counter p _)

/-- A screen after the ports' share of the boundary: it hears of the loss of its primary port. -/
def Screen.hearPorts (ports : Vector Port 12) (x : Screen) : Screen :=
  match x.ctx.primary with
  | some p => if ports[p].expires then { x with ctx := x.ctx.armFailover } else x
  | none => x

theorem hearPorts_primary {ports : Vector Port 12} {x : Screen} {p : Fin 12} (h : x.ctx.primary = some p) :
    x.hearPorts ports = if ports[p].expires then x.hearLoss p else x := by
  simp only [Screen.hearPorts, Screen.hearLoss, h, if_true]

theorem hearPorts_none {ports : Vector Port 12} {x : Screen} (h : x.ctx.primary = none) : x.hearPorts ports = x := by
  simp only [Screen.hearPorts, h]

theorem armFailover_primary (c : Context) : c.armFailover.primary = c.primary := by
  unfold Context.armFailover
  split <;> rfl

theorem hearLoss_primary (p : Fin 12) (x : Screen) : (x.hearLoss p).ctx.primary = x.ctx.primary := by
  unfold Screen.hearLoss
  split
  · exact armFailover_primary _
  · rfl

/-- The ports' shares in turn: a screen hears of a loss where its primary port is among them. -/
theorem forEach_tickPort (counter : Long) (items : List (Fin 12)) (hd : items.Nodup) (s : State) (ht : s.taken = []) :
    let t := forEach items (State.tickPort counter) s
    t.loaded = s.loaded ∧ t.blockCounter = s.blockCounter ∧ t.taken = [] ∧
      ∀ n : Fin 8, (∀ p ∈ items, s.screens[n].ctx.primary = some p → t.screens[n] = s.screens[n].hearPorts s.ports) ∧
        ((∀ p ∈ items, s.screens[n].ctx.primary ≠ some p) → t.screens[n] = s.screens[n]) := by
  induction items generalizing s with
  | nil => exact ⟨rfl, rfl, ht, fun n => ⟨fun p hp => absurd hp List.not_mem_nil, fun _ => rfl⟩⟩
  | cons a items ih =>
    obtain ⟨ha, hd⟩ := List.nodup_cons.1 hd
    have hstep := onPort_tickPort ht counter a
    obtain ⟨hloaded, hcounter, htaken, hscreens⟩ := ih hd (s.tickPort counter a) (hstep.taken.trans ht)
    refine ⟨hloaded.trans hstep.loaded, hcounter.trans hstep.counter, htaken, fun n => ?_⟩
    obtain ⟨hin, hout⟩ := hscreens n
    have hprimary : (s.tickPort counter a).screens[n].ctx.primary = s.screens[n].ctx.primary := by
      rw [hstep.screens n]
      split
      · exact hearLoss_primary _ _
      · rfl
    have hunheard (h : s.screens[n].ctx.primary ≠ some a) : (s.tickPort counter a).screens[n] = s.screens[n] := by
      rw [hstep.screens n, hearLoss_other h, ite_self]
    rw [hprimary] at hin hout
    refine ⟨fun p hp hx => ?_, fun h => ?_⟩
    · rcases List.mem_cons.1 hp with rfl | hp
      · refine (hout fun q hq hxq => ha ?_).trans ?_
        · obtain rfl : p = q := Option.some.inj (hx.symm.trans hxq)
          exact hq
        · rw [hstep.screens n, hearPorts_primary hx]
      · have hne : p ≠ a := fun h => ha (h ▸ hp)
        refine (hin p hp hx).trans ?_
        rw [hunheard fun h => hne (Option.some.inj (hx.symm.trans h))]
        rw [hearPorts_primary hx, hearPorts_primary hx, hstep.other p hne]
    · exact (hout fun p hp => h p (List.mem_cons_of_mem _ hp)).trans (hunheard (h a List.mem_cons_self))

/-- The ports' share of the boundary (R5, R9, R18). -/
theorem forPorts_tickPort (counter : Long) {s : State} (ht : s.taken = []) :
    let t := forPorts (State.tickPort counter) s
    t.loaded = s.loaded ∧ t.blockCounter = s.blockCounter ∧ t.taken = [] ∧
      ∀ n : Fin 8, t.screens[n] = s.screens[n].hearPorts s.ports := by
  obtain ⟨hloaded, hcounter, htaken, hscreens⟩ := forEach_tickPort counter _ (List.nodup_finRange 12) s ht
  refine ⟨hloaded, hcounter, htaken, fun n => ?_⟩
  obtain ⟨hin, hout⟩ := hscreens n
  cases hx : s.screens[n].ctx.primary with
  | some p => exact hin p (List.mem_finRange p) hx
  | none => exact (hout fun p _ h => by rw [hx] at h; cases h).trans (hearPorts_none hx).symm

/-! ### The arbiters' share -/

/-- `t` is `s` but for arbiters and the reset pending. -/
def ArbitersOnly (s t : State) : Prop := SameParts s t ∧ t.screens = s.screens

theorem ArbitersOnly.refl (s : State) : ArbitersOnly s s := ⟨.refl s, rfl⟩

theorem ArbitersOnly.trans (s t u : State) (h : ArbitersOnly s t) (k : ArbitersOnly t u) : ArbitersOnly s u :=
  ⟨h.1.trans k.1, k.2.trans h.2⟩

theorem arbitersOnly_modArb (s : State) (p : Fin 12) (f : Arbiter → Arbiter) : ArbitersOnly s (s.modArb p f) :=
  ⟨⟨rfl, rfl, rfl, rfl⟩, rfl⟩

theorem arbitersOnly_expireOne (counter : Long) (p : Fin 12) (s : State) : ArbitersOnly s (s.expireOne counter p) := by
  unfold State.expireOne
  split
  · split
    · simp only
      split
      · exact ⟨⟨rfl, rfl, rfl, rfl⟩, rfl⟩
      · exact arbitersOnly_modArb s p _
    · exact .refl s
  · exact .refl s

theorem arbitersOnly_tickArbiters (s : State) : ArbitersOnly s s.tickArbiters := by
  refine forEach_keeps .refl .trans _ (fun p t => ?_) _ s
  unfold State.unlessTaken State.tickArbiter
  split
  · exact .refl t
  · split <;> exact arbitersOnly_modArb t p _

theorem arbitersOnly_expireResponses (counter : Long) (s : State) :
    ArbitersOnly s (forPorts (State.expireResponses counter) s) :=
  forEach_keeps .refl .trans _
    (fun p t => forEach_keeps .refl .trans _ (fun _ u => arbitersOnly_expireOne counter p u) _ t) _ s

/-! ### The boundary's work on one screen -/

/-- The exchange timer and the presented states (R35, R39). -/
def Screen.tickLink (x : Screen) : Screen := { x with link := x.link.tickTimer.present }

/-- The active source as a boundary settles and selects it again, and whether the screen switched (R52, R53). -/
def Context.settleSource (t : State) (c : Context) : Context × Bool :=
  let first := c.settle (t.portIs c.primary .lost) (t.portIs c.alternate .locked)
  let second := first.1.reselect
  (second.1, first.2 || second.2)

/-- The source settled and the format tag resolved; a switch resets the steering (R52, R53, R55, R73). -/
def Screen.settleSource (t : State) (x : Screen) : Screen :=
  let m := x.ctx.settleSource t
  { x with ctx := m.1.resolve t.validTag, dec := if m.2 then x.dec.resetSteering else x.dec }

/-- The decode unit's work, with context `c` and these presented states (R72, R73, R77, R79). -/
def Decoder.atBoundary (t : State) (c : Context) (presented : Vector ChannelState 16) (d : Decoder) : Decoder :=
  (((d.settleFormat c.resolved (t.format? c.resolved)).copyMap c).steer c.state).formFolds presented

/-- The decode unit's work on a screen, with the screen's own context and presented states (R72, R73, R77, R79). -/
def Screen.settleDecoder (t : State) (x : Screen) : Screen := { x with dec := x.dec.atBoundary t x.ctx x.link.presented }

/-- The fade step and a pending switch's start (R95, R97). -/
def Screen.tickEngine (x : Screen) : Screen := { x with eng := x.eng.fadeStep.startSwitch x.ctx.state }

/-- The quiet interval's end (R148). -/
def Screen.endQuiet (counter : Long) (x : Screen) : Screen :=
  { x with quiet := if x.quiet = some counter then none else x.quiet }

/-- What a screen hands to its meter and alarm unit; `State.handed` by the screen. -/
def State.handing (t : State) (x : Screen) : Handed :=
  { state := x.ctx.state, speed := x.ctx.meterSpeed, fader := x.eng.fader, mute := x.eng.mute
    folded := Vector.ofFn fun k => x.dec.folds[k] != .normal
    quiet := x.quiet.isSome
    expected := Vector.ofFn fun k => x.dec.map[k].expected
    source := t.portIs x.ctx.primary .lost, amp := x.ampCondition, link := x.link.linkCondition, format := x.ctx.formatCond }

/-- The meter and alarm unit's share, with its summary formed again (R108 to R121, R129). -/
def Screen.tickMonitor (t : State) (x : Screen) : Screen := { x with mon := (x.mon.boundary (t.handing x)).summarise }

theorem onEach_tickLink : OnEach State.tickLink fun _ => Screen.tickLink := by
  refine onEach_modScreen (fun n t ht => ?_) fun _ _ _ _ => rfl
  rw [State.tickLink, unlessTaken_none ht]
  simp [State.modScreen, Screen.tickLink]

theorem onEach_settleScreen : OnEach State.settleScreen Screen.settleSource := by
  refine onEach_modScreen (fun n t _ => ?_) fun s t x h => ?_
  · simp only [State.settleScreen]
    split
    · next hs =>
      exact (modScreen_modScreen t n _ _).trans
        (modScreen_congr (by simp only [Screen.settleSource, Context.settleSource, hs, if_true]))
    · next hs => exact modScreen_congr (by simp only [Screen.settleSource, Context.settleSource, hs]; rfl)
  · unfold Screen.settleSource Context.settleSource
    rw [h.portIs, validTag_of_loaded h.loaded]

theorem onEach_settleDecoder : OnEach State.settleDecoder Screen.settleDecoder := by
  refine onEach_modScreen (fun n t _ => ?_) fun s t x h => ?_
  · unfold State.settleDecoder State.modDec
    exact modScreen_congr rfl
  simp only [Screen.settleDecoder, Decoder.atBoundary, format?_of_loaded h.loaded]

theorem onEach_tickEngine : OnEach State.tickEngine fun _ => Screen.tickEngine := by
  refine onEach_modScreen (fun n t _ => ?_) fun _ _ _ _ => rfl
  unfold State.tickEngine State.modEng
  exact modScreen_congr rfl

theorem onEach_endQuiet (counter : Long) : OnEach (State.endQuiet counter) fun _ => Screen.endQuiet counter := by
  refine onEach_modScreen (fun n t _ => ?_) fun _ _ _ _ => rfl
  unfold State.endQuiet
  split
  · next h => exact modScreen_congr (by simp only [Screen.endQuiet, h, if_true])
  · next h => exact (modScreen_self (by simp only [Screen.endQuiet, h, if_false])).symm

/-- The meter and alarm unit's share changes its screen, and the lines that follow the summary (R129, R158). -/
theorem tickMonitor_screens (n : Fin 8) (t : State) :
    (t.tickMonitor n).screens = (t.modScreen n (Screen.tickMonitor t)).screens := by
  have h : (t.modMon n fun m => (m.boundary (t.handed n)).summarise) = t.modScreen n (Screen.tickMonitor t) := by
    unfold State.modMon
    exact modScreen_congr rfl
  rw [State.tickMonitor, alarmEvent_eq, ← h]

theorem onEach_tickMonitor : OnEach State.tickMonitor Screen.tickMonitor where
  parts n t _ := ⟨rfl, rfl, rfl, rfl⟩
  own n t _ := by
    rw [tickMonitor_screens]
    exact State.modScreen_same t n _
  other n m t _ hm := by
    rw [tickMonitor_screens]
    exact State.modScreen_other t n m _ hm
  reads s t x h := by simp only [Screen.tickMonitor, State.handing, h.portIs]

/-! ### The boundary's shares -/

theorem tickLinks_screens {s : State} (ht : s.taken = []) :
    s.tickLinks.loaded = s.loaded ∧ s.tickLinks.blockCounter = s.blockCounter ∧ s.tickLinks.taken = [] ∧
      ∀ n : Fin 8, s.tickLinks.screens[n] = (s.screens[n].hearPorts s.ports).tickLink := by
  obtain ⟨hloaded, hcounter, htaken, hports⟩ := forPorts_tickPort s.blockCounter ht
  obtain ⟨harbiters, hsame⟩ := ArbitersOnly.trans _ _ _
    (arbitersOnly_expireResponses s.blockCounter (forPorts (State.tickPort s.blockCounter) s)) (arbitersOnly_tickArbiters _)
  obtain ⟨hparts, hlinks⟩ := onEach_forScreens onEach_tickLink _ (harbiters.taken.trans htaken)
  have hall := harbiters.trans hparts
  refine ⟨hall.loaded.trans hloaded, hall.counter.trans hcounter, hall.taken.trans htaken, fun n => (hlinks n).trans ?_⟩
  simp only [hsame, hports n]

theorem tickScreens_screens {s : State} (ht : s.taken = []) :
    SameParts s s.tickScreens ∧
      ∀ n : Fin 8, s.tickScreens.screens[n] = ((s.screens[n].settleSource s).settleDecoder s).tickEngine := by
  obtain ⟨hsource, screens1⟩ := onEach_forScreens onEach_settleScreen s ht
  obtain ⟨hdecoder, screens2⟩ := onEach_forScreens onEach_settleDecoder _ (hsource.taken.trans ht)
  obtain ⟨hengine, screens3⟩ := onEach_forScreens onEach_tickEngine _ ((hsource.trans hdecoder).taken.trans ht)
  refine ⟨(hsource.trans hdecoder).trans hengine, fun n => (screens3 n).trans ?_⟩
  simp only [screens2 n, screens1 n, onEach_settleDecoder.reads _ _ _ hsource]

theorem tickTimers_screens {s : State} (ht : s.taken = []) :
    SameParts s s.tickTimers ∧ ∀ n : Fin 8, s.tickTimers.screens[n] = s.screens[n].endQuiet s.blockCounter := by
  obtain ⟨hparts, hscreens⟩ := onEach_forScreens (onEach_endQuiet s.blockCounter) s ht
  unfold State.tickTimers State.tickLines
  generalize forScreens (State.endQuiet s.blockCounter) s = t at hparts hscreens
  exact ⟨⟨hparts.ports, hparts.loaded, hparts.counter, hparts.taken⟩, hscreens⟩

/-- The boundary's whole work on one screen, after what is due and the ports' share (assumption log 5). -/
def Screen.throughBoundary (t : State) (x : Screen) : Screen :=
  ((((x.tickLink.settleSource t).settleDecoder t).tickEngine).endQuiet t.blockCounter).tickMonitor t

/-- From the opening of the block, the boundary hands each screen the ports' share and takes it through its work. -/
theorem openedBlock_screens {u : State} (ht : u.taken = []) :
    let t := forScreens State.tickMonitor u.tickLinks.tickScreens.tickTimers
    t.loaded = u.loaded ∧ t.taken = [] ∧ ∀ n : Fin 8, t.screens[n] = (u.screens[n].hearPorts u.ports).throughBoundary t := by
  obtain ⟨loaded1, -, taken1, screens1⟩ := tickLinks_screens ht
  obtain ⟨parts2, screens2⟩ := tickScreens_screens taken1
  obtain ⟨parts3, screens3⟩ := tickTimers_screens (parts2.taken.trans taken1)
  have htimers := parts2.trans parts3
  obtain ⟨parts4, screens4⟩ := onEach_forScreens onEach_tickMonitor _ (htimers.taken.trans taken1)
  have hall := htimers.trans parts4
  refine ⟨hall.loaded.trans loaded1, hall.taken.trans taken1, fun n => (screens4 n).trans ?_⟩
  rw [screens3 n, screens2 n, screens1 n, Screen.throughBoundary, onEach_tickMonitor.reads _ _ _ parts4,
    (parts3.trans parts4).counter, onEach_settleDecoder.reads _ _ _ hall, onEach_settleScreen.reads _ _ _ hall]

theorem emptyTaken_self {t : State} (h : t.taken = []) : { t with taken := [] } = t := by
  rw [← h]

/-- What a boundary makes of each screen: what is due, then the ports' share, then `throughBoundary` with the ports as the boundary
leaves them. The format table stays. -/
theorem boundary_screens {s : State} (hr : s.resetPending = none) (ht : s.taken = []) :
    s.boundary.loaded = s.loaded ∧ ∀ n : Fin 8, ∃ w, AfterDue s.screens[n] w ∧
      s.boundary.screens[n] = (w.hearPorts s.ports).throughBoundary s.boundary := by
  have hdue := dueTaken_settleDue hr
  unfold State.boundary
  generalize s.settleDue = d at hdue ⊢
  have hports : d.openBlock.ports = s.ports := hdue.parts.ports
  obtain ⟨hloaded, htaken, hscreens⟩ := openedBlock_screens (u := d.openBlock) (hdue.parts.taken.trans ht)
  generalize forScreens State.tickMonitor d.openBlock.tickLinks.tickScreens.tickTimers = t at hloaded htaken hscreens ⊢
  rw [emptyTaken_self htaken, ← hports]
  exact ⟨hloaded.trans hdue.parts.loaded, fun n => ⟨_, hdue.screens n, hscreens n⟩⟩

end Sys2Proof.Machine
end

-- Proofs/BoundarySettles: source, tag, format, folds and alarms at a boundary (O49)
section
/-! What the parts of a screen become in `Screen.throughBoundary`, and the statement that a boundary settles them (R39, R50 to R55,
R71, R72, R79, R111 to R121, R129). -/

namespace Sys2Proof.Machine

/-! ### The parts of a screen after the boundary's work -/

section
variable (t : State) (x : Screen)

theorem throughBoundary_link : (x.throughBoundary t).link = x.link.tickTimer.present := rfl

theorem throughBoundary_ctx : (x.throughBoundary t).ctx = (x.ctx.settleSource t).1.resolve t.validTag := rfl

theorem throughBoundary_dec : (x.throughBoundary t).dec =
    (if (x.ctx.settleSource t).2 then x.dec.resetSteering else x.dec).atBoundary t (x.throughBoundary t).ctx
      (x.throughBoundary t).link.presented := rfl

/-- What a screen hands to its meter and alarm unit does not depend on the unit. -/
theorem handing_tickMonitor : t.handing (x.tickMonitor t) = t.handing x := by
  simp only [State.handing, Screen.tickMonitor, Screen.ampCondition]

theorem throughBoundary_mon : (x.throughBoundary t).mon = (x.mon.boundary (t.handing (x.throughBoundary t))).summarise := by
  rw [Screen.throughBoundary, handing_tickMonitor]
  rfl

end

/-! ### The screen port -/

/-- The presented states are the rack's in UP, below its channel count, and ABSENT otherwise (R39). -/
theorem present_at (x : ScreenPort) (k : Fin 16) : x.present.presented[k] = x.presentedState k := by
  simp [ScreenPort.present]

theorem present_link (x : ScreenPort) : x.present.link = x.link := by
  simp only [ScreenPort.present]

/-- The LINK condition holds of a port that is not in UP (R41). -/
theorem linkCondition_iff (x : ScreenPort) : x.linkCondition = true ↔ x.link ≠ .up := by
  simp [ScreenPort.linkCondition]

/-- The exchange timer leaves a port in UP as it is (R35). -/
theorem tickTimer_up {x : ScreenPort} (h : x.link = .up) : x.tickTimer = x := by
  simp [ScreenPort.tickTimer, h]

/-- The exchange timer brings no port to UP (R35). -/
theorem tickTimer_not_up {x : ScreenPort} (h : x.link ≠ .up) : x.tickTimer.link ≠ .up := by
  unfold ScreenPort.tickTimer
  split
  · split
    · simp [ScreenPort.timeout, ScreenPort.enterHunt]
    · exact h
  · exact h

/-- What a boundary presents of a rack's channel (R35, R39). -/
theorem presented_after_tick (x : ScreenPort) (k : Fin 16) :
    (∀ m, x.link = .up → x.channelCount = some m → k.val < m → x.tickTimer.present.presented[k] = x.stored[k]) ∧
    (x.link ≠ .up ∨ x.channelCount = none ∨ (∃ m, x.channelCount = some m ∧ m ≤ k.val) →
      x.tickTimer.present.presented[k] = .absent) := by
  rw [present_at]
  by_cases hl : x.link = .up
  · rw [tickTimer_up hl]
    refine ⟨fun m _ hc hk => by simp [ScreenPort.presentedState, hl, hc, hk], ?_⟩
    rintro (h | hc | ⟨m, hc, hk⟩)
    · exact absurd hl h
    · simp [ScreenPort.presentedState, hc]
    · simp [ScreenPort.presentedState, hl, hc, Nat.not_lt.2 hk]
  · exact ⟨fun m h => absurd h hl, fun _ => by simp [ScreenPort.presentedState, tickTimer_not_up hl]⟩

/-! ### The active source -/

/-- The loss of a screen's primary port, as the screen hears it at the boundary: failover becomes due where the screen is RUNNING on
that port with an alternate (R49, R50). -/
theorem hearPorts_ctx (ports : Vector Port 12) (x : Screen) :
    let c := x.ctx
    let told := c.state = .running ∧ c.active = .primary ∧ c.alternate.isSome = true ∧
      ∃ q, c.primary = some q ∧ ports[q].state = .holdover ∧ ports[q].holdoverLeft ≤ 1
    (told → (x.hearPorts ports).ctx = { c with failoverDue := true }) ∧ (¬told → (x.hearPorts ports).ctx = c) := by
  refine ⟨fun ⟨hrun, hact, halt, q, hq, hold, hleft⟩ => ?_, fun h => ?_⟩
  · have he : ports[q].expires = true := by simp only [Port.expires, hold, hleft]; rfl
    rw [hearPorts_primary hq, if_pos he, Screen.hearLoss, if_pos hq]
    exact if_pos ⟨hrun, hact, halt⟩
  · cases hq : x.ctx.primary with
    | none => rw [hearPorts_none hq]
    | some q =>
      rw [hearPorts_primary hq, Screen.hearLoss, if_pos hq]
      split
      · next he =>
        simp only [Port.expires, Bool.and_eq_true, beq_iff_eq, decide_eq_true_eq] at he
        exact if_neg fun ⟨hrun, hact, halt⟩ => h ⟨hrun, hact, halt, q, hq, he⟩
      · rfl

/-- Everything of a screen but its context is as it was before the ports' share. -/
theorem hearPorts_rest (ports : Vector Port 12) (x : Screen) : x.hearPorts ports = { x with ctx := (x.hearPorts ports).ctx } := by
  unfold Screen.hearPorts
  split
  · split <;> rfl
  · rfl

/-- A source request taken at a boundary (R52). -/
theorem settle_request {l k : Bool} {c : Context} {role : SourceRole} (hs : c.state ≠ .dark) (hr : c.requested = some role) :
    c.settle l k = if (c.portOf role).isSome ∧ c.active ≠ activeOf role then
        ({ c with requested := none, active := activeOf role, activePort := c.portOf role }, true)
      else ({ c with requested := none }, false) := by
  rw [Context.settle, if_neg hs, hr]
  rfl

/-- A request for another source with a configured port is a switch (R52). -/
theorem settle_request_switches {l k : Bool} {c : Context} {role : SourceRole} (hs : c.state ≠ .dark) (hr : c.requested = some role)
    (h : (c.portOf role).isSome ∧ c.active ≠ activeOf role) :
    (c.settle l k).1 = { c with requested := none, active := activeOf role, activePort := c.portOf role } ∧
      (c.settle l k).2 = true := by
  rw [settle_request hs hr, if_pos h]
  exact ⟨rfl, rfl⟩

/-- Any other request is dropped (R52). -/
theorem settle_request_dropped {l k : Bool} {c : Context} {role : SourceRole} (hs : c.state ≠ .dark) (hr : c.requested = some role)
    (h : ¬((c.portOf role).isSome ∧ c.active ≠ activeOf role)) :
    (c.settle l k).1 = { c with requested := none } ∧ (c.settle l k).2 = false := by
  rw [settle_request hs hr, if_neg h]
  exact ⟨rfl, rfl⟩

/-- A failover that is due at a boundary (R52). -/
theorem settle_failover {l k : Bool} {c : Context} (hs : c.state ≠ .dark) (hr : c.requested = none) (hf : c.failoverDue = true) :
    c.settle l k = if c.state = .running ∧ c.active = .primary ∧ l = true ∧ k = true then
        ({ c with failoverDue := false, active := .alternate, activePort := c.alternate, failovers := oneMore c.failovers }, true)
      else ({ c with failoverDue := false }, false) := by
  rw [Context.settle, if_neg hs, hr]
  exact if_pos hf

/-- R52's settling is as `SourceSettled` says. -/
theorem settle_sourceSettled {lost locked : Prop} {l k : Bool} (hl : l = true ↔ lost) (hk : k = true ↔ locked) (c : Context) :
    SourceSettled lost locked c (c.settle l k).1 (c.settle l k).2 := by
  obtain rfl := propext hl
  obtain rfl := propext hk
  refine ⟨fun hs => ?_, fun hs => ⟨fun role hr => ?_, fun hr hf => ?_, fun hr hf => ?_⟩⟩
  · rw [Context.settle, if_pos hs]
    exact ⟨rfl, rfl⟩
  · cases role <;> exact ⟨settle_request_switches hs hr, settle_request_dropped hs hr⟩
  · rw [settle_failover hs hr hf]
    refine ⟨fun h => ?_, fun h => ?_⟩
    · rw [if_pos h]
      exact ⟨rfl, rfl⟩
    · rw [if_neg h]
      exact ⟨rfl, rfl⟩
  · simp [Context.settle, hs, hr, hf]

/-- The port of a screen's active source is not the port in use, or a port is configured for a source that was NONE (R53). -/
def Context.PortChanged (c : Context) : Prop :=
  (c.active = .primary ∧ c.activePort ≠ c.primary) ∨ (c.active = .alternate ∧ c.activePort ≠ c.alternate) ∨
    (c.active = .none ∧ (c.primary.isSome = true ∨ c.alternate.isSome = true))

theorem reselect_changed {c : Context} (h : c.state ≠ .dark ∧ c.PortChanged) : c.reselect = (c.selectSource, true) := by
  obtain ⟨hs, ⟨ha, hp⟩ | ⟨ha, hp⟩ | ⟨ha, hp⟩⟩ := h <;> simp [Context.reselect, hs, ha, hp]

theorem reselect_unchanged {c : Context} (h : ¬(c.state ≠ .dark ∧ c.PortChanged)) : c.reselect = (c, false) := by
  by_cases hs : c.state = .dark
  · exact if_pos hs
  · have hc : ¬c.PortChanged := fun hc => h ⟨hs, hc⟩
    cases ha : c.active <;> simp_all [Context.reselect, Context.PortChanged]

/-- R53's selection made again is as `SourceReselected` says. -/
theorem reselect_sourceReselected (c : Context) : SourceReselected c c.reselect.1 c.reselect.2 := by
  refine ⟨fun h => ?_, fun h => ?_⟩
  · rw [reselect_changed h]
    refine ⟨rfl, fun p hp => ?_, fun hp => ⟨fun q hq => ?_, fun hq => ?_⟩⟩
    · simp only [Context.selectSource, hp]
    · simp only [Context.selectSource, hp, hq]
    · simp only [Context.selectSource, hp, hq]
  · rw [reselect_unchanged h]
    exact ⟨rfl, rfl⟩

/-- Two contexts that differ in the active source and what goes with it alone. -/
def SourceOnly (c m : Context) : Prop :=
  m = { c with active := m.active, activePort := m.activePort, requested := m.requested, failoverDue := m.failoverDue
               failovers := m.failovers }

theorem SourceOnly.trans {c m k : Context} (h : SourceOnly c m) (h' : SourceOnly m k) : SourceOnly c k := by
  unfold SourceOnly at *
  rw [h', h]

theorem sourceOnly_hearPorts (ports : Vector Port 12) (x : Screen) : SourceOnly x.ctx (x.hearPorts ports).ctx := by
  obtain ⟨htold, hnot⟩ := hearPorts_ctx ports x
  by_cases h : x.ctx.state = .running ∧ x.ctx.active = .primary ∧ x.ctx.alternate.isSome = true ∧
      ∃ q, x.ctx.primary = some q ∧ ports[q].state = .holdover ∧ ports[q].holdoverLeft ≤ 1
  · rw [htold h]; rfl
  · rw [hnot h]; rfl

theorem sourceOnly_settle (l k : Bool) (c : Context) : SourceOnly c (c.settle l k).1 := by
  unfold Context.settle
  split
  · rfl
  · split
    · simp only
      split <;> rfl
    · split
      · simp only
        split <;> rfl
      · rfl

theorem sourceOnly_selectSource (c : Context) : SourceOnly c c.selectSource := by
  unfold Context.selectSource
  split
  · rfl
  · split <;> rfl

theorem sourceOnly_reselect (c : Context) : SourceOnly c c.reselect.1 := by
  by_cases h : c.state ≠ .dark ∧ c.PortChanged
  · rw [reselect_changed h]
    exact sourceOnly_selectSource c
  · rw [reselect_unchanged h]
    rfl

theorem sourceOnly_settleSource (t : State) (c : Context) : SourceOnly c (c.settleSource t).1 :=
  (sourceOnly_settle _ _ c).trans (sourceOnly_reselect _)

/-! ### The format tag -/

/-- Resolving writes the resolved tag and the FORMAT condition (R55). -/
theorem resolve_rest (valid : Nat → Bool) (c : Context) :
    c.resolve valid = { c with resolved := (c.resolve valid).resolved, formatCond := (c.resolve valid).formatCond } := by
  unfold Context.resolve
  split <;> rfl

theorem filter_valid {valid : Nat → Bool} {tag : Nat} (hv : valid tag = true) : (some tag).filter valid = some tag :=
  if_pos hv

theorem filter_invalid {valid : Nat → Bool} {o : Option Nat} (h : ∀ tag, o = some tag → valid tag = false) :
    o.filter valid = none := by
  cases o with
  | none => rfl
  | some tag => simp [Option.filter, h tag rfl]

/-- A valid override is the resolved tag (R55). -/
theorem resolve_override {valid : Nat → Bool} {c : Context} {tag : Nat} (h : c.override = some tag) (hv : valid tag = true) :
    (c.resolve valid).resolved = tag ∧ (c.resolve valid).formatCond = false := by
  rw [Context.resolve, h, filter_valid hv]
  exact ⟨rfl, rfl⟩

/-- Without a valid override, a valid descriptor tag is (R55). -/
theorem resolve_descTag {valid : Nat → Bool} {c : Context} {tag : Nat} (ho : ∀ k, c.override = some k → valid k = false)
    (h : c.descTag = some tag) (hv : valid tag = true) :
    (c.resolve valid).resolved = tag ∧ (c.resolve valid).formatCond = false := by
  rw [Context.resolve, filter_invalid ho, h, filter_valid hv]
  exact ⟨rfl, rfl⟩

/-- Without either, the fallback tag is, and the FORMAT condition holds (R55). -/
theorem resolve_fallback {valid : Nat → Bool} {c : Context} (ho : ∀ k, c.override = some k → valid k = false)
    (hd : ∀ k, c.descTag = some k → valid k = false) :
    (c.resolve valid).resolved = c.fallback ∧ (c.resolve valid).formatCond = true := by
  rw [Context.resolve, filter_invalid ho, filter_invalid hd]
  exact ⟨rfl, rfl⟩

/-! ### The decode unit -/

/-- A steering update leaves all but target, weight and blended coefficients (R77). -/
theorem steer_rest (st : ScreenState) (d : Decoder) : d.steer st =
    { d with target := (d.steer st).target, weight := (d.steer st).weight, blended := (d.steer st).blended } := by
  unfold Decoder.steer
  split <;> rfl

section
variable {t : State} {c : Context} {presented : Vector ChannelState 16} {d : Decoder}

/-- The working format is a fresh copy where the tag has changed or the record is stale (R71, R72). -/
theorem atBoundary_fresh {f : FormatRecord} (h : c.resolved ≠ d.tag ∨ d.stale = true) (hf : t.format? c.resolved = some f) :
    (d.atBoundary t c presented).tag = c.resolved ∧ (d.atBoundary t c presented).format = f ∧
      (d.atBoundary t c presented).stale = false := by
  rw [Decoder.atBoundary, steer_rest]
  simp [Decoder.settleFormat, h, hf, Decoder.resetSteering, Decoder.copyMap, Decoder.formFolds]

/-- Otherwise it stays (R72). -/
theorem atBoundary_kept (h : c.resolved = d.tag) (hs : d.stale = false) :
    (d.atBoundary t c presented).tag = d.tag ∧ (d.atBoundary t c presented).format = d.format := by
  rw [Decoder.atBoundary, steer_rest]
  simp [Decoder.settleFormat, h, hs, Decoder.copyMap, Decoder.formFolds]

/-- The working map and the fold-down enable are the screen's, and every fold status is formed (R72, R79). -/
theorem atBoundary_map : (d.atBoundary t c presented).map = c.map ∧ (d.atBoundary t c presented).foldEnable = c.foldEnable ∧
    ∀ k : Fin 16, (d.atBoundary t c presented).folds[k] = foldStatus c.foldEnable c.map presented k := by
  rw [Decoder.atBoundary, steer_rest]
  simp [Decoder.copyMap, Decoder.formFolds]

end

/-- A channel state is failed exactly when it is FAULT or ABSENT (R79). -/
theorem failed_iff (c : ChannelState) : c.failed = true ↔ c = .fault ∨ c = .absent := by
  cases c <;> simp [ChannelState.failed]

/-- The fold status of a channel, by its own state and its partner's (R79). -/
theorem foldStatus_cases (enable : Bool) (map : Vector MapEntry 16) (presented : Vector ChannelState 16) (k : Fin 16) :
    let failed (j : Fin 16) : Prop := presented[j] = .fault ∨ presented[j] = .absent
    (enable = false ∨ ¬failed k ∨ map[k].partner = none → foldStatus enable map presented k = .normal) ∧
    ∀ j, enable = true → failed k → map[k].partner = some j →
      (failed j → foldStatus enable map presented k = .dropped) ∧
      (¬failed j → foldStatus enable map presented k = .folded j) := by
  simp only [← failed_iff, foldStatus]
  refine ⟨?_, fun j he hk hp => ⟨fun hj => ?_, fun hj => ?_⟩⟩
  · rintro (he | hk | hp)
    · simp only [he, Bool.false_eq_true, false_and, if_false]
    · exact if_neg fun h => hk h.2
    · simp only [hp, ite_self]
  · simp only [he, hk, hp, hj, and_self, if_true]
  · simp only [he, hk, hp, hj, and_self, if_true]; rfl

/-! ### The meter and alarm unit -/

/-- SILENT's ids are 32 to 47 (section 6.2). -/
theorem classOf_silent (id : Fin 54) : classOf id = .silent ↔ 32 ≤ id.val ∧ id.val ≤ 47 := by
  revert id
  decide

/-- AMP and LINK alone are evaluated in DARK (R119). -/
theorem classOf_amp_or_link (id : Fin 54) : (classOf id = .amp ∨ classOf id = .link) ↔ id.val = 50 ∨ id.val = 51 := by
  revert id
  decide

/-- The classes that a screen state evaluates, by alarm id (R119). -/
theorem evaluates_iff (st : ScreenState) (id : Fin 54) : evaluates st (classOf id) = true ↔
    (st = .dark → id.val = 50 ∨ id.val = 51) ∧ (st = .standby → ¬(32 ≤ id.val ∧ id.val ≤ 47)) := by
  cases st with
  | dark => simp [evaluates, classOf_amp_or_link]
  | standby => simp [evaluates, classOf_silent]
  | running => simp [evaluates]

/-- Suppression as the unit judges it is `SuppressedBy` (R120, R121). -/
theorem suppressed_iff (m : Monitor) (id : Fin 54) : m.suppressed id = true ↔ SuppressedBy m id := by
  simp only [Monitor.suppressed, Bool.or_eq_true, Bool.and_eq_true, beq_iff_eq, classOf_silent, SuppressedBy, or_assoc]
  refine or_congr Iff.rfl ⟨fun ⟨⟨h1, h2⟩, h⟩ => ?_, fun ⟨c, hc, h⟩ => ?_⟩
  · have hid : id.val = 32 + (channelOf id).val := by simp only [channelOf]; omega
    exact ⟨channelOf id, hid, h⟩
  · have hch : channelOf id = c := Fin.ext (by simp only [channelOf]; omega)
    exact ⟨by omega, hch ▸ h⟩

/-- Watching as the unit judges it is `Watched` (R110). -/
theorem watches_iff (m : Monitor) (id : Fin 54) : m.watches id = true ↔ Watched m id := by
  simp only [Monitor.watches, Bool.and_eq_true, evaluates_iff, Bool.not_eq_true', ← Bool.not_eq_true, suppressed_iff, Watched,
    and_assoc]

/-- The summary just formed is right (R129). -/
theorem summarise_right (m : Monitor) : SummaryRight m.summarise := by
  have hstands (id : Fin 54) : Stands m.summarise id ↔ m.alarms[id].stands = true := by
    simp [Stands, Alarm.stands]
  refine ⟨fun h => ?_, fun lv ⟨id, hs, hl⟩ hmin => ?_⟩
  · refine (formSummary_none m).2 fun id => ?_
    rw [← Bool.not_eq_true, ← hstands]
    exact h id
  · exact formSummary_some m lv ⟨id, (hstands id).1 hs, hl⟩ fun i hi => hmin i ((hstands i).2 hi)

section
variable (h : Handed) (m : Monitor) (id : Fin 54)

/-! What the unit takes over for a boundary leaves its table, alarms and pending set. -/

@[simp] theorem takeHanded_record : (m.takeHanded h).record id = m.record id := by
  simp only [Monitor.record, Monitor.takeHanded]

@[simp] theorem takeHanded_alarms : (m.takeHanded h).alarms = m.alarms := by
  simp only [Monitor.takeHanded]

@[simp] theorem takeHanded_pending : (m.takeHanded h).pending = m.pending := by
  simp only [Monitor.takeHanded]

theorem boundary_alarms : (m.boundary h).alarms[id] = (m.takeHanded h).alarmAfter h id := by
  simp [Monitor.boundary]

theorem boundary_pending : (m.boundary h).pending[id] = (m.takeHanded h).pendingAfter h id := by
  simp [Monitor.boundary]

/-- A boundary's occurrences and steps change alarms, pending set and summary alone. -/
theorem boundary_rest : (m.boundary h).summarise = { m.takeHanded h with
    alarms := (m.boundary h).alarms, pending := (m.boundary h).pending, summary := (m.boundary h).formSummary } := by
  simp only [Monitor.summarise, Monitor.boundary]

theorem boundary_record : (m.boundary h).summarise.record id = m.record id := by
  rw [boundary_rest]
  simp only [Monitor.record, Monitor.takeHanded]

/-- The unit holds what it was handed (R119, R120). -/
theorem boundary_handed : (m.boundary h).summarise.evaluated = h.state ∧ (m.boundary h).summarise.handedFader = h.fader ∧
    (m.boundary h).summarise.handedMute = h.mute ∧ (m.boundary h).summarise.handedFolded = h.folded ∧
    (m.boundary h).summarise.handedQuiet = h.quiet := by
  rw [boundary_rest]
  simp only [Monitor.takeHanded, and_self]

/-- The LINK condition is the one handed (R41, R112). -/
theorem condition_link : m.condition h 51 = h.link := by
  simp only [Monitor.condition, show classOf 51 = .link from rfl]

/-- The unit judges its watching by what it was handed at this boundary (R119, R120). -/
theorem boundary_watches : (m.boundary h).summarise.watches id = (m.takeHanded h).watches id := by
  rw [boundary_rest]
  simp only [Monitor.watches, Monitor.suppressed, Monitor.record]

end

section
variable {h : Handed} {m : Monitor} {id : Fin 54}

/-- An alarm that is not watched is CLEAR after a boundary (R119, R120). -/
theorem boundary_unwatched (hw : ¬Watched (m.boundary h).summarise id) : (m.boundary h).summarise.alarms[id] = alarmClear := by
  rw [← watches_iff, boundary_watches, Bool.not_eq_true] at hw
  rw [Monitor.summarise_alarms, boundary_alarms, Monitor.alarmAfter, hw]
  rfl

/-- A watched alarm of count 1 that stands CLEAR, with no early end, is RAISED and pending after a boundary at which its condition
holds (R116, R117, R118, R123). -/
theorem boundary_raises (hw : Watched (m.boundary h).summarise id) (hc : (m.takeHanded h).condition h id = true)
    (hcount : (m.record id).count ≤ 1) (hstate : m.alarms[id].state = .clear) (hearly : m.alarms[id].early = none) :
    (m.boundary h).summarise.alarms[id] = { state := .raised, count := 0, left := 0, clean := 0, hit := false } ∧
      (m.pending[id] = none → (m.boundary h).summarise.pending[id] = some false) := by
  rw [← watches_iff, boundary_watches] at hw
  have hocc : (m.takeHanded h).occurrenceAt h id =
      ({ state := .raised, count := 0, left := 0, clean := 0, hit := true }, true) := by
    rw [Monitor.occurrenceAt, if_pos hc, takeHanded_alarms, takeHanded_record, Alarm.resumed_none hearly, Alarm.occurrence, hstate]
    exact if_pos hcount
  refine ⟨?_, fun hp => ?_⟩
  · rw [Monitor.summarise_alarms, boundary_alarms, Monitor.alarmAfter, if_pos hw, hocc]
    rfl
  · rw [Monitor.summarise_pending, boundary_pending, Monitor.pendingAfter, takeHanded_pending, hp, Monitor.raisedAt, hw, hocc]
    rfl

end

/-- An alarm that is disabled, not evaluated or suppressed is not watched (R110, R119 to R121). -/
theorem not_watched {m : Monitor} {id : Fin 54}
    (h : (m.record id).enable = false ∨ (m.evaluated = .dark ∧ id.val ≠ 50 ∧ id.val ≠ 51) ∨
      (m.evaluated = .standby ∧ 32 ≤ id.val ∧ id.val ≤ 47) ∨ SuppressedBy m id) : ¬Watched m id := by
  rintro ⟨henable, hdark, hstandby, hsup⟩
  rcases h with h | ⟨hd, h50, h51⟩ | ⟨hs, hid⟩ | h
  · rw [h] at henable
    cases henable
  · exact (hdark hd).elim h50 h51
  · exact hstandby hs hid
  · exact hsup h

/-! ### The statement -/

/-- The context that a boundary settles for a screen is one with its source settled, resolved (R52, R53, R55). -/
theorem boundarySource_settled {s t : State} {n : Fin 8} {w : Screen} (hw : w.ctx = s.screens[n].ctx) :
    BoundarySource s t n ((w.hearPorts s.ports).ctx.settleSource t).1 ((w.hearPorts s.ports).ctx.settleSource t).2 := by
  obtain ⟨htold, hnot⟩ := hearPorts_ctx s.ports w
  have honly := sourceOnly_hearPorts s.ports w
  have hprimary : (w.hearPorts s.ports).ctx.primary = s.screens[n].ctx.primary := by rw [honly, hw]
  have halternate : (w.hearPorts s.ports).ctx.alternate = s.screens[n].ctx.alternate := by rw [honly, hw]
  rw [hw] at htold hnot
  refine ⟨_, _, _, _, htold, hnot, settle_sourceSettled ?_ ?_ _, reselect_sourceReselected _, rfl⟩
  · rw [portIs_iff, hprimary]
  · rw [portIs_iff, halternate]

/-- A switch's steering reset leaves what the settling of the format reads. -/
theorem resetSteering_ite (b : Bool) (d : Decoder) :
    (if b then d.resetSteering else d).tag = d.tag ∧ (if b then d.resetSteering else d).format = d.format ∧
      (if b then d.resetSteering else d).stale = d.stale := by
  cases b <;> exact ⟨rfl, rfl, rfl⟩

/-- The parts of screen `n` from `s` to `t` through a boundary: `w` is the screen after what was due, and `m` its context with the
source settled. -/
structure BoundaryParts (s t : State) (n : Fin 8) (w : Screen) (m : Context) (switched : Bool) : Prop where
  loaded : t.loaded = s.loaded
  due : AfterDue s.screens[n] w
  source : BoundarySource s t n m switched
  only : SourceOnly s.screens[n].ctx m
  link : t.screens[n].link = s.screens[n].link.tickTimer.present
  ctx : t.screens[n].ctx = m.resolve s.validTag
  dec : t.screens[n].dec = (if switched then s.screens[n].dec.resetSteering else s.screens[n].dec).atBoundary t t.screens[n].ctx
    t.screens[n].link.presented
  mon : t.screens[n].mon = (w.mon.boundary (t.handing t.screens[n])).summarise

/-- A boundary with no reset pending and no share taken ahead acts on each screen by these parts. -/
theorem boundary_parts {s : State} (hr : s.resetPending = none) (ht : s.taken = []) (n : Fin 8) :
    ∃ w m switched, BoundaryParts s s.boundary n w m switched := by
  obtain ⟨hloaded, hscreens⟩ := boundary_screens hr ht
  obtain ⟨w, hw, hy⟩ := hscreens n
  generalize s.boundary = t at hloaded hy ⊢
  have hrest := hearPorts_rest s.ports w
  have honly := (sourceOnly_hearPorts s.ports w).trans (sourceOnly_settleSource t _)
  have hsource := boundarySource_settled (t := t) hw.ctx
  generalize w.hearPorts s.ports = v at hy hrest honly hsource
  refine ⟨w, _, _, hloaded, hw, hsource, hw.ctx ▸ honly, ?_, ?_, ?_, ?_⟩
  · rw [hy, throughBoundary_link, hrest, ← hw.link]
  · rw [hy, throughBoundary_ctx, validTag_of_loaded hloaded]
  · rw [hy, throughBoundary_dec, hrest, ← hw.dec]
  · rw [hy, throughBoundary_mon, hrest]

section
variable {s t : State} {n : Fin 8} {w : Screen} {m : Context} {switched : Bool}

/-- A boundary leaves the screen state, the map and the fold-down enable of the screen record. -/
theorem BoundaryParts.record (h : BoundaryParts s t n w m switched) : t.screens[n].ctx.state = s.screens[n].ctx.state ∧
    t.screens[n].ctx.map = s.screens[n].ctx.map ∧ t.screens[n].ctx.foldEnable = s.screens[n].ctx.foldEnable := by
  rw [h.ctx, resolve_rest, h.only]
  exact ⟨rfl, rfl, rfl⟩

/-- The resolved tag after a boundary (R55). -/
theorem BoundaryParts.resolved (h : BoundaryParts s t n w m switched) :
    let c := s.screens[n].ctx
    let y := t.screens[n].ctx
    (∀ tag, c.override = some tag → s.validTag tag = true → y.resolved = tag ∧ y.formatCond = false) ∧
    ((∀ tag, c.override = some tag → s.validTag tag = false) →
      (∀ tag, c.descTag = some tag → s.validTag tag = true → y.resolved = tag ∧ y.formatCond = false) ∧
      ((∀ tag, c.descTag = some tag → s.validTag tag = false) → y.resolved = c.fallback ∧ y.formatCond = true)) := by
  have hover : m.override = s.screens[n].ctx.override := by rw [h.only]
  have hdesc : m.descTag = s.screens[n].ctx.descTag := by rw [h.only]
  have hfallback : m.fallback = s.screens[n].ctx.fallback := by rw [h.only]
  simp only [h.ctx, ← hover, ← hdesc, ← hfallback]
  exact ⟨fun tag => resolve_override, fun ho => ⟨fun tag => resolve_descTag ho, resolve_fallback ho⟩⟩

/-- The working format after a boundary (R71, R72). -/
theorem BoundaryParts.format (h : BoundaryParts s t n w m switched) :
    let d := s.screens[n].dec
    let y := t.screens[n]
    (∀ f, (y.ctx.resolved ≠ d.tag ∨ d.stale = true) → s.format? y.ctx.resolved = some f →
      y.dec.tag = y.ctx.resolved ∧ y.dec.format = f ∧ y.dec.stale = false) ∧
    (y.ctx.resolved = d.tag → d.stale = false → y.dec.tag = d.tag ∧ y.dec.format = d.format) := by
  obtain ⟨htag, hformat, hstale⟩ := resetSteering_ite switched s.screens[n].dec
  simp only [h.dec, ← htag, ← hformat, ← hstale, ← format?_of_loaded h.loaded]
  exact ⟨fun f => atBoundary_fresh, atBoundary_kept⟩

/-- The working map, fold-down enable and fold statuses after a boundary (R72, R79). -/
theorem BoundaryParts.folds (h : BoundaryParts s t n w m switched) :
    t.screens[n].dec.map = s.screens[n].ctx.map ∧ t.screens[n].dec.foldEnable = s.screens[n].ctx.foldEnable ∧
      ∀ k : Fin 16, t.screens[n].dec.folds[k] =
        foldStatus t.screens[n].dec.foldEnable t.screens[n].dec.map t.screens[n].link.presented k := by
  obtain ⟨-, hmap, henable⟩ := h.record
  rw [h.dec, ← hmap, ← henable]
  obtain ⟨hm, he, hf⟩ := atBoundary_map (t := t) (c := t.screens[n].ctx) (presented := t.screens[n].link.presented)
    (d := if switched then s.screens[n].dec.resetSteering else s.screens[n].dec)
  rw [hm, he]
  exact ⟨rfl, rfl, hf⟩

/-- What the meter and alarm unit has been handed after a boundary (R119, R120). -/
theorem BoundaryParts.handed (h : BoundaryParts s t n w m switched) :
    let y := t.screens[n]
    y.mon.evaluated = s.screens[n].ctx.state ∧ y.mon.handedFader = y.eng.fader ∧ y.mon.handedMute = y.eng.mute ∧
      y.mon.handedQuiet = y.quiet.isSome ∧ ∀ k : Fin 16, y.mon.handedFolded[k] = true ↔ y.dec.folds[k] ≠ .normal := by
  obtain ⟨hstate, hfader, hmute, hfolded, hquiet⟩ := boundary_handed (t.handing t.screens[n]) w.mon
  rw [← h.mon] at hstate hfader hmute hfolded hquiet
  exact ⟨hstate.trans h.record.1, hfader, hmute, hquiet, fun k => by rw [hfolded]; simp [State.handing]⟩

/-- An alarm that is not watched is CLEAR after a boundary (R119, R120). -/
theorem BoundaryParts.unwatched (h : BoundaryParts s t n w m switched) {id : Fin 54} (hw : ¬Watched t.screens[n].mon id) :
    t.screens[n].mon.alarms[id] = alarmClear := by
  rw [h.mon] at hw ⊢
  exact boundary_unwatched hw

/-- A link that is not UP raises an enabled LINK alarm of count 1 that stands CLEAR (R41, R112, R116 to R118). -/
theorem BoundaryParts.linkAlarm (h : BoundaryParts s t n w m switched) (hl : s.screens[n].link.link ≠ .up)
    (hw : Watched t.screens[n].mon 51) (hcount : (t.screens[n].mon.record 51).count ≤ 1)
    (hstate : s.screens[n].mon.alarms[(51 : Fin 54)].state = .clear)
    (hearly : s.screens[n].mon.alarms[(51 : Fin 54)].early = none) :
    t.screens[n].mon.alarms[(51 : Fin 54)] = { state := .raised, count := 0, left := 0, clean := 0, hit := false } ∧
      (s.screens[n].mon.pending[(51 : Fin 54)] = none → t.screens[n].mon.pending[(51 : Fin 54)] = some false) := by
  have halarms : w.mon.alarms = s.screens[n].mon.alarms := by rw [h.due.mon]
  have hlink : (t.handing t.screens[n]).link = true := by
    rw [State.handing, linkCondition_iff, h.link, present_link]
    exact tickTimer_not_up hl
  rw [← halarms] at hstate hearly
  rw [h.mon] at hw hcount ⊢
  rw [boundary_record] at hcount
  obtain ⟨hraised, hpending⟩ := boundary_raises hw ((condition_link _ _).trans hlink) hcount hstate hearly
  exact ⟨hraised, fun hp => hpending (h.due.pending 51 hp)⟩

end

/-- Settles O49: each clause is the lemma on its part of the screen. -/
theorem boundarySettlesEachScreen : Obligations.BoundarySettlesEachScreen := by
  intro s hp hr ht
  refine ⟨s.boundary, live_on hp _, fun n => ?_⟩
  obtain ⟨w, m, switched, h⟩ := boundary_parts hr ht n
  generalize s.boundary = t at h ⊢
  obtain ⟨hover, hother⟩ := h.resolved
  obtain ⟨hfresh, hkept⟩ := h.format
  obtain ⟨hmap, henable, hfolds⟩ := h.folds
  obtain ⟨hevaluated, hfader, hmute, hquiet, hfolded⟩ := h.handed
  refine ⟨fun k => ?_, ⟨m, switched, h.source, ?_⟩, hover, hother, hfresh, hkept, hmap, henable, fun k => ?_, hevaluated,
    hfader, hmute, hquiet, hfolded, fun id hid => ?_, fun hl he hcount hsup hclear hearly => ?_, ?_⟩
  · rw [h.link]
    exact presented_after_tick _ k
  · rw [h.ctx]
    exact resolve_rest _ m
  · rw [hfolds k]
    exact foldStatus_cases _ _ _ k
  · rw [← hevaluated] at hid
    exact h.unwatched (not_watched hid)
  · exact h.linkAlarm hl ⟨he, fun _ => .inr rfl, fun _ hid => absurd hid.2 (by decide), hsup⟩ hcount hclear hearly
  · rw [h.mon]
    exact summarise_right _

end Sys2Proof.Machine
end

-- Proofs/BoundarySteers: steering and fold losses at a boundary (O50)
section
/-! What a boundary makes of the decode unit's steering and fold losses (R72, R73, R77, R81): one lemma for each stage of
`Decoder.atBoundary`, and then the stages put together. -/

namespace Sys2Proof.Machine

/-! ### The target and the weight -/

/-- Envelopes that do not favour the sum give a target of 0 (R77). -/
theorem targetWeight_zero {sum diff : Int} (h : sum ≤ diff) : targetWeight sum diff = 0 := if_pos h

/-- The target is the whole part of 64 × (sum - diff) / (sum + diff) where the sum's envelope is the greater (R77). -/
theorem targetWeight_bounds {sum diff : Int} (h0 : 0 ≤ diff) (h : diff < sum) :
    targetWeight sum diff * (sum + diff) ≤ 64 * (sum - diff) ∧ 64 * (sum - diff) < (targetWeight sum diff + 1) * (sum + diff) := by
  have hpos : 0 < sum + diff := by omega
  have hquot : 0 ≤ 64 * (sum - diff) / (sum + diff) := Int.ediv_nonneg (by omega) hpos.le
  rw [targetWeight, if_neg (by omega), Int.toNat_of_nonneg hquot]
  exact ⟨Int.ediv_mul_le _ hpos.ne', Int.lt_ediv_add_one_mul_self _ hpos⟩

/-- The weight reaches a target that is no further away than the slew, and else moves toward it by the slew (R77). -/
theorem moveWeight_cases (slew weight target : Nat) :
    (weight ≤ target + slew → target ≤ weight + slew → moveWeight slew weight target = target) ∧
    (weight + slew < target → moveWeight slew weight target = weight + slew) ∧
    (target + slew < weight → moveWeight slew weight target = weight - slew) := by
  unfold moveWeight
  refine ⟨fun h k => if_pos ⟨k, h⟩, fun h => ?_, fun h => ?_⟩
  · rw [if_neg (by omega), if_pos (by omega)]
  · rw [if_neg (by omega), if_neg (by omega)]

/-! ### The working format settled -/

section
variable {d : Decoder} {tag : Nat} {record : Option FormatRecord}

/-- The steering stands as a reset leaves it (R73). -/
def Decoder.AtRest (d : Decoder) : Prop :=
  d.sumEnv = 0 ∧ d.diffEnv = 0 ∧ d.target = 0 ∧ d.weight = 0 ∧ d.blended = d.format.rows.map (·.a)

theorem resetSteering_atRest (d : Decoder) : d.resetSteering.AtRest := ⟨rfl, rfl, rfl, rfl, rfl⟩

/-- A fresh copy of the working format resets the steering (R72, R73). -/
theorem settleFormat_fresh (h : (tag ≠ d.tag ∨ d.stale = true) ∧ record.isSome = true) : (d.settleFormat tag record).AtRest := by
  obtain ⟨f, rfl⟩ := Option.isSome_iff_exists.1 h.2
  rw [Decoder.settleFormat, if_pos h.1]
  exact resetSteering_atRest _

/-- Without one the decode unit stays as it is (R71, R72). -/
theorem settleFormat_kept (h : ¬((tag ≠ d.tag ∨ d.stale = true) ∧ record.isSome = true)) : d.settleFormat tag record = d := by
  unfold Decoder.settleFormat
  split
  · next hc =>
    cases record with
    | none => rfl
    | some f => exact absurd ⟨hc, rfl⟩ h
  · rfl

/-- The settling of the format leaves the fold statuses and the fold losses. -/
theorem settleFormat_folds (d : Decoder) (tag : Nat) (record : Option FormatRecord) :
    (d.settleFormat tag record).folds = d.folds ∧ (d.settleFormat tag record).foldLosses = d.foldLosses := by
  unfold Decoder.settleFormat
  split
  · cases record <;> exact ⟨rfl, rfl⟩
  · exact ⟨rfl, rfl⟩

/-- The decode unit once a switch of source has reset its steering and its working format is settled (R72, R73). -/
def Decoder.settled (switched : Bool) (tag : Nat) (record : Option FormatRecord) (d : Decoder) : Decoder :=
  (if switched then d.resetSteering else d).settleFormat tag record

/-- A switch or a fresh working format leaves the steering reset (R52, R72, R73). -/
theorem settled_reset {switched : Bool} (h : switched = true ∨ ((tag ≠ d.tag ∨ d.stale = true) ∧ record.isSome = true)) :
    (d.settled switched tag record).AtRest := by
  unfold Decoder.settled
  obtain ⟨htag, -, hstale⟩ := resetSteering_ite switched d
  rw [← htag, ← hstale] at h
  by_cases hf : (tag ≠ (if switched then d.resetSteering else d).tag ∨ (if switched then d.resetSteering else d).stale = true) ∧
      record.isSome = true
  · exact settleFormat_fresh hf
  · rw [settleFormat_kept hf, h.resolve_right hf]
    exact resetSteering_atRest d

/-- Without a fresh working format, tag, format and stale flag stay (R71, R72). -/
theorem settled_kept {switched : Bool} (h : ¬((tag ≠ d.tag ∨ d.stale = true) ∧ record.isSome = true)) :
    d.settled switched tag record = if switched then d.resetSteering else d := by
  obtain ⟨htag, -, hstale⟩ := resetSteering_ite switched d
  rw [← htag, ← hstale] at h
  exact settleFormat_kept h

/-- The fold statuses and the fold losses stay until the folds are formed again (R79). -/
theorem settled_folds (switched : Bool) (tag : Nat) (record : Option FormatRecord) (d : Decoder) :
    (d.settled switched tag record).folds = d.folds ∧ (d.settled switched tag record).foldLosses = d.foldLosses := by
  have h := settleFormat_folds (if switched then d.resetSteering else d) tag record
  cases switched <;> exact h

end

/-! ### The steering update and the folds -/

/-- A row blended at a weight of 64 for matrix B (R77). -/
theorem blendRow_eq (w : Nat) (row : FormatRow) : blendRow w row =
    Vector.ofFn fun j : Fin 16 => (row.a[j] * (64 - (w : Int)) + row.b[j] * (w : Int) + 32) / 64 := rfl

/-- In STANDBY and RUNNING a steered format has its steering updated (R77). -/
theorem steer_steered {st : ScreenState} {d : Decoder} {x : Steering} (hs : st ≠ .dark) (hx : d.format.steering = some x) :
    (d.steer st).target = targetWeight d.sumEnv d.diffEnv ∧
      (d.steer st).weight = moveWeight x.slew d.weight (d.steer st).target ∧
      (d.steer st).blended = d.format.rows.map (blendRow (d.steer st).weight) := by
  cases st with
  | dark => exact absurd rfl hs
  | standby | running => simp only [Decoder.steer, hx, and_self]

/-- In DARK, or with a format that is not steered, the steering stands (R77). -/
theorem steer_unsteered {st : ScreenState} {d : Decoder} (h : ¬(st ≠ .dark ∧ d.format.steering.isSome = true)) :
    d.steer st = d := by
  unfold Decoder.steer
  split
  · rfl
  · rfl
  · next hs hx => exact absurd ⟨hs, by rw [hx]; rfl⟩ h

/-- The steering update reads neither map nor fold-down enable (R77). -/
theorem copyMap_steer (c : Context) (st : ScreenState) (d : Decoder) : (d.copyMap c).steer st =
    { d.copyMap c with target := (d.steer st).target, weight := (d.steer st).weight, blended := (d.steer st).blended } := by
  unfold Decoder.steer Decoder.copyMap
  simp only
  split <;> rfl

/-- The weight of a steering at rest stays 0 through an update (R73, R77). -/
theorem Decoder.AtRest.steer {d : Decoder} (h : d.AtRest) (st : ScreenState) : (d.steer st).target = 0 ∧ (d.steer st).weight = 0 := by
  obtain ⟨hsum, hdiff, htarget, hweight, -⟩ := h
  by_cases hs : st ≠ .dark ∧ d.format.steering.isSome = true
  · obtain ⟨x, hx⟩ := Option.isSome_iff_exists.1 hs.2
    obtain ⟨ht, hw, -⟩ := steer_steered hs.1 hx
    rw [hw, ht, hsum, hdiff, hweight, targetWeight_zero (Int.le_refl 0)]
    exact ⟨rfl, (moveWeight_cases x.slew 0 0).1 (Nat.zero_le _) (Nat.zero_le _)⟩
  · rw [steer_unsteered hs]
    exact ⟨htarget, hweight⟩

/-- `y` is the settled decode unit `e` after a boundary's other stages in screen state `st`: the steering update, and the fold
losses counted (R77, R81). -/
structure DecodedFrom (e : Decoder) (st : ScreenState) (y : Decoder) : Prop where
  tag : y.tag = e.tag
  format : y.format = e.format
  stale : y.stale = e.stale
  sumEnv : y.sumEnv = e.sumEnv
  diffEnv : y.diffEnv = e.diffEnv
  target : y.target = (e.steer st).target
  weight : y.weight = (e.steer st).weight
  blended : y.blended = (e.steer st).blended
  losses : y.foldLosses = min 65535 (e.foldLosses + newDrops e.folds y.folds)

/-- The stages that follow the settling of the format (R72, R77, R79, R81). -/
theorem atBoundary_decodedFrom (t : State) (c : Context) (presented : Vector ChannelState 16) (d : Decoder) :
    DecodedFrom (d.settleFormat c.resolved (t.format? c.resolved)) c.state (d.atBoundary t c presented) := by
  rw [Decoder.atBoundary, copyMap_steer]
  exact ⟨rfl, rfl, rfl, rfl, rfl, rfl, rfl, rfl, rfl⟩

section
variable {e y : Decoder} {st : ScreenState}

/-- A steering that was reset ends the boundary with target and weight 0 (R73, R77). -/
theorem DecodedFrom.atRest (h : DecodedFrom e st y) (hr : e.AtRest) :
    y.sumEnv = 0 ∧ y.diffEnv = 0 ∧ y.target = 0 ∧ y.weight = 0 := by
  obtain ⟨htarget, hweight⟩ := hr.steer st
  obtain ⟨hsum, hdiff, -⟩ := hr
  exact ⟨h.sumEnv.trans hsum, h.diffEnv.trans hdiff, h.target.trans htarget, h.weight.trans hweight⟩

/-- A steering that is not updated stands (R77). -/
theorem DecodedFrom.unsteered (h : DecodedFrom e st y) (hs : ¬(st ≠ .dark ∧ y.format.steering.isSome = true)) :
    y.target = e.target ∧ y.weight = e.weight ∧ y.blended = e.blended := by
  rw [h.format] at hs
  rw [h.target, h.weight, h.blended, steer_unsteered hs]
  exact ⟨rfl, rfl, rfl⟩

/-- A steering that is updated: target, weight and blended coefficients (R77). -/
theorem DecodedFrom.steered {x : Steering} (h : DecodedFrom e st y) (hs : st ≠ .dark) (hx : y.format.steering = some x) :
    y.target = targetWeight e.sumEnv e.diffEnv ∧ y.weight = moveWeight x.slew e.weight y.target ∧
      y.blended = y.format.rows.map (blendRow y.weight) := by
  rw [h.target, h.weight, h.blended, h.format]
  rw [h.format] at hx
  exact steer_steered hs hx

end

/-! ### The statement -/

/-- The decode unit after a boundary comes from its settled form (R72, R73, R77, R81). -/
theorem BoundaryParts.decoded {s t : State} {n : Fin 8} {w : Screen} {m : Context} {switched : Bool}
    (h : BoundaryParts s t n w m switched) :
    DecodedFrom (s.screens[n].dec.settled switched t.screens[n].ctx.resolved (s.format? t.screens[n].ctx.resolved))
      s.screens[n].ctx.state t.screens[n].dec := by
  rw [h.dec, ← h.record.1, ← format?_of_loaded h.loaded]
  exact atBoundary_decodedFrom _ _ _ _

/-- Settles O50: the settled decode unit, its steering update and its folds, one clause from each. -/
theorem boundarySteersAndCountsFoldLosses : Obligations.BoundarySteersAndCountsFoldLosses := by
  intro s hp hr ht
  refine ⟨s.boundary, live_on hp _, fun n => ?_⟩
  obtain ⟨w, m, switched, h⟩ := boundary_parts hr ht n
  generalize s.boundary = t at h ⊢
  refine ⟨m, switched, h.source, ?_⟩
  have hy := h.decoded
  obtain ⟨hfolds, hlosses⟩ := settled_folds switched t.screens[n].ctx.resolved (s.format? t.screens[n].ctx.resolved)
    s.screens[n].dec
  intro x d y resolved fresh reset steered
  have hrest : reset → (d.settled switched resolved (s.format? resolved)).AtRest := settled_reset
  have hkept : ¬reset → d.settled switched resolved (s.format? resolved) = d := fun hn => by
    rw [settled_kept fun hf => hn (.inr hf), if_neg fun hs => hn (.inl hs)]
  refine ⟨rfl, fun hf => ?_, fun hre => hy.atRest (hrest hre), fun hn => ?_, fun hre hs => ?_, fun hn hs => ?_,
    fun st hn hs hx => ?_, fun hs => ?_, ?_⟩
  · obtain ⟨htag, hformat, hstale⟩ := resetSteering_ite switched d
    rw [hy.tag, hy.format, hy.stale, settled_kept hf]
    exact ⟨htag, hformat, hstale⟩
  · rw [hy.sumEnv, hy.diffEnv, hkept hn]
    exact ⟨rfl, rfl⟩
  · obtain ⟨-, -, hblended⟩ := hy.unsteered hs
    obtain ⟨-, -, -, -, hmatrixA⟩ := hrest hre
    rw [hblended, hy.format]
    exact hmatrixA
  · rw [← hkept hn]
    exact hy.unsteered hs
  · obtain ⟨htarget, hweight, -⟩ := hy.steered hs hx
    rw [hkept hn] at htarget hweight
    rw [hweight]
    refine ⟨fun hle => htarget.trans (targetWeight_zero hle), fun h0 hlt => ?_, moveWeight_cases st.slew d.weight y.target⟩
    rw [htarget]
    exact targetWeight_bounds h0 hlt
  · obtain ⟨st, hx⟩ := Option.isSome_iff_exists.1 hs.2
    obtain ⟨-, -, hblended⟩ := hy.steered hs.1 hx
    exact hblended.trans (List.map_congr_left fun row _ => blendRow_eq _ row)
  · rw [← hfolds, ← hlosses]
    exact hy.losses

end Sys2Proof.Machine
end

-- Proofs/ScreenSet: the items of SCREEN-SET (O18)
section
/-! SCREEN-SET is read field by field: `Sets` ties an item of R60's table to the field of the screen record that it alone writes, and
says once what a list of items leaves of that field. -/

namespace Sys2Proof.Machine

/-! ### What an owning block's answer leaves -/

section
variable {s t : State} {h : ReqHead} {k : ReqKind} {body : State → Answer}

theorem outcome_done {items : List Word} (hb : body s = .done t items) : outcome s h k body = t.answered h k items := by
  simp only [outcome, hb]

theorem outcome_refuse {code : RefusalCode} (hb : body s = .refuse code) : outcome s h k body = s.refusedWith h k code := by
  simp only [outcome, hb]

end

/-! ### SCREEN-SET: the items and the fields they write -/

/-- An index below the bound is found as itself. -/
theorem index?_val {n : Nat} (k : Fin n) : index? n k.val = some k := by simp [index?]

/-- An optional number below the bound is kept as an index. -/
theorem bind_index?_val {n : Nat} {o : Option Nat} (h : ∀ k, o = some k → k < n) : (o.bind (index? n)).map (·.val) = o := by
  cases o with
  | none => rfl
  | some k => exact congrArg (Option.map (·.val)) (index?_val ⟨k, h k rfl⟩)

/-- An item on an output channel writes that channel's entry of the speaker map (R60). -/
theorem writeItem_mapEntry (c : Context) (k : Fin 16) (e : MapOperand) : c.writeItem (.mapEntry k.val e) = { c with
    map := c.map.set k.val
      { role := e.role, expected := e.expected, partner := e.partner.bind (index? 16), gain := e.gain } } := by
  simp only [Context.writeItem, index?_val]

/-- Two screen records that differ in what SCREEN-SET configures alone (R60). -/
def ConfigOnly (c d : Context) : Prop :=
  d = { c with primary := d.primary, alternate := d.alternate, follow := d.follow, fallback := d.fallback
               override := d.override, map := d.map, foldEnable := d.foldEnable, meterSpeed := d.meterSpeed
               window := d.window }

theorem ConfigOnly.trans {c d e : Context} (h : ConfigOnly c d) (k : ConfigOnly d e) : ConfigOnly c e := by
  unfold ConfigOnly at *
  rw [k, h]

/-- What an item leaves of a screen record: every field that items of another kind set, and everything that none sets (R60). -/
structure OthersStay (i : ScreenItem) (c d : Context) : Prop where
  primary : (∀ p, i ≠ .primary p) → d.primary = c.primary
  alternate : (∀ p, i ≠ .alternate p) → d.alternate = c.alternate
  follow : (∀ on, i ≠ .follow on) → d.follow = c.follow
  fallback : (∀ tag, i ≠ .fallback tag) → d.fallback = c.fallback
  override : (∀ tag, i ≠ .override tag) → d.override = c.override
  map : ∀ k : Fin 16, (∀ e, i ≠ .mapEntry k.val e) → d.map[k] = c.map[k]
  foldEnable : (∀ on, i ≠ .foldEnable on) → d.foldEnable = c.foldEnable
  meterSpeed : (∀ x, i ≠ .meterSpeed x) → d.meterSpeed = c.meterSpeed
  window : (∀ ms, i ≠ .window ms) → d.window = c.window
  config : ConfigOnly c d

theorem OthersStay.refl (i : ScreenItem) (c : Context) : OthersStay i c c := by
  constructor <;> intros <;> rfl

theorem writeItem_othersStay (c : Context) (i : ScreenItem) : OthersStay i c (c.writeItem i) := by
  cases i with
  | mapEntry channel e =>
    by_cases h : channel < 16
    · rw [writeItem_mapEntry c ⟨channel, h⟩ e]
      constructor
      case map =>
        intro k hk
        have hne : channel ≠ k.val := fun hc => hk e (hc ▸ rfl)
        exact Vector.getElem_set_ne h k.isLt hne
      all_goals intros; rfl
    · have hw : c.writeItem (.mapEntry channel e) = c := by simp [Context.writeItem, index?, h]
      rw [hw]
      exact .refl _ c
  | _ => constructor <;> simp [Context.writeItem, ConfigOnly]

/-- The items `item a` write `value a` to the field that `get` reads, and no other item writes it (R60). -/
structure Sets {α β : Type} (item : α → ScreenItem) (get : Context → β) (value : α → β) : Prop where
  own : ∀ (c : Context) a, get (c.writeItem (item a)) = value a
  other : ∀ (c : Context) i, (∀ a, i ≠ item a) → get (c.writeItem i) = get c
  same : ∀ a b, itemKey (item a) = itemKey (item b)

section
variable {α β : Type} {item : α → ScreenItem} {get : Context → β} {value : α → β}

/-- A field that no item carried sets stays (R60). -/
theorem Sets.untouched (h : Sets item get value) {items : List ScreenItem} (hn : ∀ a, item a ∉ items) (c : Context) :
    get (c.writeItems items) = get c := by
  induction items generalizing c with
  | nil => rfl
  | cons i items ih =>
    refine (ih (fun a ha => hn a (List.mem_cons_of_mem i ha)) (c.writeItem i)).trans (h.other c i fun a hi => hn a ?_)
    exact hi ▸ List.mem_cons_self

/-- A field that an item carried sets takes its value, where no other item carried sets the same thing (R60). -/
theorem Sets.written (h : Sets item get value) {items : List ScreenItem} (hd : (items.map itemKey).Nodup) {a : α}
    (ha : item a ∈ items) (c : Context) : get (c.writeItems items) = value a := by
  induction items generalizing c with
  | nil => cases ha
  | cons i items ih =>
    obtain ⟨hi, hd⟩ := List.nodup_cons.1 hd
    rcases List.mem_cons.1 ha with rfl | ha
    · refine (h.untouched (fun b hb => hi ?_) (c.writeItem (item a))).trans (h.own c a)
      exact List.mem_map.2 ⟨item b, hb, h.same b a⟩
    · exact ih hd ha (c.writeItem i)

/-- What a list of items makes of a field (R60). -/
theorem Sets.carried (h : Sets item get value) {items : List ScreenItem} (hd : (items.map itemKey).Nodup) (c : Context) :
    (∀ a, item a ∈ items → get (c.writeItems items) = value a) ∧
      ((∀ a, item a ∉ items) → get (c.writeItems items) = get c) :=
  ⟨fun _ ha => h.written hd ha c, fun hn => h.untouched hn c⟩

end

/-! The rows of R60's table. -/

theorem sets_primary : Sets .primary Context.primary fun p => p.bind (index? 12) :=
  ⟨fun _ _ => rfl, fun c i => (writeItem_othersStay c i).primary, fun _ _ => rfl⟩

theorem sets_alternate : Sets .alternate Context.alternate fun p => p.bind (index? 12) :=
  ⟨fun _ _ => rfl, fun c i => (writeItem_othersStay c i).alternate, fun _ _ => rfl⟩

theorem sets_follow : Sets .follow Context.follow id :=
  ⟨fun _ _ => rfl, fun c i => (writeItem_othersStay c i).follow, fun _ _ => rfl⟩

theorem sets_fallback : Sets .fallback Context.fallback id :=
  ⟨fun _ _ => rfl, fun c i => (writeItem_othersStay c i).fallback, fun _ _ => rfl⟩

theorem sets_override : Sets .override Context.override id :=
  ⟨fun _ _ => rfl, fun c i => (writeItem_othersStay c i).override, fun _ _ => rfl⟩

theorem sets_map (k : Fin 16) : Sets (.mapEntry k.val) (fun c => c.map[k]) fun e =>
    { role := e.role, expected := e.expected, partner := e.partner.bind (index? 16), gain := e.gain } :=
  ⟨fun c e => by simp [writeItem_mapEntry], fun c i => (writeItem_othersStay c i).map k, fun _ _ => rfl⟩

theorem sets_foldEnable : Sets .foldEnable Context.foldEnable id :=
  ⟨fun _ _ => rfl, fun c i => (writeItem_othersStay c i).foldEnable, fun _ _ => rfl⟩

theorem sets_meterSpeed : Sets .meterSpeed Context.meterSpeed fun x => max 1 (min x 8) :=
  ⟨fun _ _ => rfl, fun c i => (writeItem_othersStay c i).meterSpeed, fun _ _ => rfl⟩

theorem sets_window : Sets .window Context.window fun ms => min ms 10000 :=
  ⟨fun _ _ => rfl, fun c i => (writeItem_othersStay c i).window, fun _ _ => rfl⟩

/-- A list of items leaves everything that no item sets (R60). -/
theorem configOnly_writeItems (items : List ScreenItem) (c : Context) : ConfigOnly c (c.writeItems items) := by
  induction items generalizing c with
  | nil => rfl
  | cons i items ih => exact (writeItem_othersStay c i).config.trans (ih (c.writeItem i))

/-! ### SCREEN-SET: the checks -/

/-- Two items have one key exactly when they set the same thing (R60). -/
theorem itemKey_eq_iff (x y : ScreenItem) : itemKey x = itemKey y ↔ SameItem x y := by
  cases x <;> cases y <;> simp [itemKey, SameItem]

theorem itemKeys_nodup_iff (items : List ScreenItem) :
    (items.map itemKey).Nodup ↔ items.Pairwise fun x y => ¬SameItem x y := by
  simp only [List.Nodup, List.pairwise_map, ne_eq, itemKey_eq_iff]

/-- An optional operand is below a limit exactly when any number it carries is. -/
theorem optBelow_iff (limit : Nat) (o : Option Nat) : optBelow limit o = true ↔ ∀ k, o = some k → k < limit := by
  cases o <;> simp [optBelow]

/-- The check of one item is that it is in range (R60). -/
theorem itemOk_iff (s : State) (i : ScreenItem) : s.itemOk i = true ↔ ItemInRange s i := by
  cases i with
  | primary p | alternate p => simp [State.itemOk, ItemInRange, optBelow_iff, Nat.lt_succ_iff]
  | fallback tag => simp [State.itemOk, ItemInRange]
  | override tag => cases tag <;> simp [State.itemOk, ItemInRange]
  | mapEntry channel e =>
    simp only [State.itemOk, ItemInRange, optBelow_iff, Bool.and_eq_true, decide_eq_true_eq]
    constructor
    · rintro ⟨⟨hchannel, hpartner⟩, hother⟩
      exact ⟨Nat.le_of_lt_succ hchannel, fun k hk => ⟨Nat.le_of_lt_succ (hpartner k hk), fun hc => hother (hc ▸ hk)⟩⟩
    · rintro ⟨hchannel, hpartner⟩
      exact ⟨⟨Nat.lt_succ_of_le hchannel, fun k hk => Nat.lt_succ_of_le (hpartner k hk).1⟩,
        fun hc => (hpartner channel hc).2 rfl⟩
  | follow on | foldEnable on | meterSpeed x | window ms => simp [State.itemOk, ItemInRange]

/-- The port of a role once the items are written is the one its item carries, or the one configured before (R60). -/
theorem Sets.portAfter_eq {item : Option Nat → ScreenItem} {get : Context → Option (Fin 12)}
    (h : Sets item get fun p => p.bind (index? 12)) {pick : ScreenItem → Option (Option Nat)}
    (hpick : ∀ i p, pick i = some p ↔ i = item p) {items : List ScreenItem} (hd : (items.map itemKey).Nodup)
    (hr : ∀ p, item p ∈ items → ∀ k, p = some k → k ≤ 11) (c : Context) :
    (get (c.writeItems items)).map (·.val) = portAfter pick items (get c) := by
  unfold portAfter
  cases hf : items.findSome? pick with
  | none =>
    rw [List.findSome?_eq_none_iff] at hf
    rw [h.untouched fun p hp => ?_]
    have := hf _ hp
    rw [(hpick _ p).2 rfl] at this
    cases this
  | some p =>
    obtain ⟨i, hi, hp⟩ := List.exists_of_findSome?_eq_some hf
    obtain rfl := (hpick i p).1 hp
    rw [h.written hd hi]
    exact bind_index?_val fun k hk => Nat.lt_succ_of_le (hr p hi k hk)

/-- The source ports differ exactly when no port is both (R60). -/
theorem portsDiffer_iff (c : Context) :
    c.portsDiffer = true ↔ ¬∃ p, c.primary.map (·.val) = some p ∧ c.alternate.map (·.val) = some p := by
  unfold Context.portsDiffer
  cases c.primary with
  | none => simp
  | some p => cases c.alternate with
    | none => simp
    | some q =>
      have hval : p = q ↔ q.val = p.val := Fin.ext_iff.trans eq_comm
      simp [hval]

/-- Settles O18: the checks are those of R60, and each field is read off by its row of the table. -/
theorem screenSetWritesTheItemsCarried : Obligations.ScreenSetWritesTheItemsCarried := by
  intro h items s
  refine under_screen (answerScreenSet h items) rfl rfl rfl rfl fun n hn hx => ?_
  intro old distinct inRange samePort
  have hkeys : (items.map itemKey).Nodup ↔ distinct := itemKeys_nodup_iff items
  have hrange : items.all s.itemOk = true ↔ inRange := by simp only [List.all_eq_true, itemOk_iff, inRange]
  have hports (hd : distinct) (hr : inRange) :
      (old.writeItems items).primary.map (·.val) = portAfter pickPrimary items old.primary ∧
        (old.writeItems items).alternate.map (·.val) = portAfter pickAlternate items old.alternate :=
    ⟨sets_primary.portAfter_eq (fun i p => by cases i <;> simp [pickPrimary]) (hkeys.2 hd) (fun p hp => hr _ hp) old,
      sets_alternate.portAfter_eq (fun i p => by cases i <;> simp [pickAlternate]) (hkeys.2 hd) (fun p hp => hr _ hp) old⟩
  have hdiffer (hd : distinct) (hr : inRange) : (old.writeItems items).portsDiffer = true ↔ ¬samePort := by
    rw [portsDiffer_iff, (hports hd hr).1, (hports hd hr).2]
  have hanswer : answerScreenSet h items s = _ := onScreen_at hn _
  refine ⟨fun hbad => ?_, fun hd hr hs => ⟨old.writeItems items, ?_, (hports hd hr).1, (hports hd hr).2, ?_⟩⟩
  · rw [hx, outcome_refuse (hanswer.trans (if_neg fun ⟨hk, ho, hp⟩ => ?_))]
    have hd := hkeys.1 hk
    have hr := hrange.1 ho
    rcases hbad with hbad | hbad | hbad
    · exact hbad hd
    · exact hbad hr
    · exact (hdiffer hd hr).1 hp hbad
  · rw [hx, outcome_done (hanswer.trans (if_pos ⟨hkeys.2 hd, hrange.2 hr, (hdiffer hd hr).2 hs⟩))]
    rfl
  · have hk := hkeys.2 hd
    obtain ⟨follow1, follow2⟩ := sets_follow.carried hk old
    obtain ⟨fallback1, fallback2⟩ := sets_fallback.carried hk old
    obtain ⟨override1, override2⟩ := sets_override.carried hk old
    obtain ⟨fold1, fold2⟩ := sets_foldEnable.carried hk old
    obtain ⟨speed1, speed2⟩ := sets_meterSpeed.carried hk old
    obtain ⟨window1, window2⟩ := sets_window.carried hk old
    refine ⟨follow1, follow2, fallback1, fallback2, override1, override2, fold1, fold2, speed1, speed2, window1, window2,
      fun k => ?_, configOnly_writeItems items old⟩
    obtain ⟨map1, map2⟩ := (sets_map k).carried hk old
    refine ⟨fun e he => ?_, map2⟩
    rw [map1 e he]
    exact ⟨rfl, rfl, bind_index?_val fun j hj => Nat.lt_succ_of_le ((hr _ he).2 j hj).1, rfl⟩

end Sys2Proof.Machine
end

-- Proofs/ScreenStates: SCREEN-STATE, SCREEN-SOURCE and SCREEN-RESET (O19 to O21)
section
/-! The requests that move a screen between its states (R44 to R47, R51, R62). Their changes of the screen and their alarm events
are brought to one change of the screen and one alarm event after it, which the statements then read off. -/

namespace Sys2Proof.Machine

/-! ### Alarm events among other changes of a screen -/

/-- The summary last handed decides an ALARM-mode line (R158). -/
theorem followSummary_followSummary (n : Fin 8) (a b : Option Nat) (l : Line) :
    (l.followSummary n a).followSummary n b = l.followSummary n b := by
  unfold Line.followSummary
  split <;> simp_all

/-- The meter and alarm unit after a change of its screen. -/
theorem modScreen_mon {s : State} {n : Fin 8} {k : Screen → Screen} {m : Monitor} (h : (k s.screens[n]).mon = m) :
    (s.modScreen n k).screens[n].mon = m := by
  rw [Fin.getElem_fin, State.modScreen_same]
  exact h

section
variable {s : State} {n : Fin 8} {f g : Monitor → Monitor}

/-- Two alarm events that agree on the unit, its summary formed again, are one. -/
theorem alarmEvent_congr (h : (f s.screens[n].mon).summarise = (g s.screens[n].mon).summarise) :
    s.alarmEvent n f = s.alarmEvent n g := by
  have hmod : (s.modMon n fun m => (f m).summarise) = s.modMon n fun m => (g m).summarise :=
    modScreen_congr (by simp only [h])
  unfold State.alarmEvent
  rw [hmod]

/-- Two alarm events in turn are one. -/
theorem alarmEvent_alarmEvent : (s.alarmEvent n f).alarmEvent n g = s.alarmEvent n fun m => g (f m).summarise := by
  simp [alarmEvent_eq, followSummary_followSummary, State.modScreen]

/-- A change of the screen that neither reads nor writes the meter and alarm unit may come before an alarm event as
well as after. -/
theorem alarmEvent_modScreen (k : Screen → Screen) (hk : ∀ x m, k { x with mon := m } = { k x with mon := m }) :
    (s.alarmEvent n f).modScreen n k = (s.modScreen n k).alarmEvent n f := by
  have hmon (x : Screen) : (k x).mon = x.mon := by
    have hsame := congrArg Screen.mon (hk x x.mon)
    exact hsame
  have hmods : (s.modMon n fun m => (f m).summarise).modScreen n k = (s.modScreen n k).modMon n fun m => (f m).summarise := by
    rw [State.modMon_eq, State.modMon_eq, modScreen_modScreen, modScreen_modScreen]
    exact modScreen_congr (by rw [hk, hmon])
  have hunit : (s.modScreen n k).screens[n].mon = s.screens[n].mon := modScreen_mon (hmon _)
  rw [alarmEvent_eq, alarmEvent_eq, hunit, ← hmods]
  rfl

/-- An alarm event changes its screen's meter and alarm unit. -/
theorem alarmEvent_mon : (s.alarmEvent n f).screens[n].mon = (f s.screens[n].mon).summarise := by
  simp [alarmEvent_eq]

/-- An alarm event that returns alarms to CLEAR is as `ClearsAlarms` says (R120 to R122, R129, R158). -/
theorem alarmEvent_clearsAlarms {cond : Fin 54 → Bool} {m : Monitor} {P : Fin 54 → Prop}
    (hf : f s.screens[n].mon = m.clearWhere cond) (hP : ∀ id, cond id = true ↔ P id) :
    ClearsAlarms n P m s (s.alarmEvent n f) := by
  have hmon : (s.alarmEvent n f).screens[n].mon = (m.clearWhere cond).summarise := by rw [alarmEvent_mon, hf]
  refine ⟨?_, ?_, fun id => ?_, ?_, fun l => ?_⟩
  · rw [hmon, ← hf, alarmEvent_eq]
    have hmod : (s.modMon n fun m => (f m).summarise) = s.modMon n fun _ => (f s.screens[n].mon).summarise := modScreen_congr rfl
    rw [hmod]
  · simp only [hmon, Monitor.summarise, Monitor.clearWhere]
  · rw [hmon, Monitor.summarise_alarms, Monitor.clearWhere_alarm, ← hP]
    exact ⟨fun h => if_pos h, fun h => if_neg h⟩
  · rw [hmon]
    exact summarise_right _
  · have hline : (s.alarmEvent n f).lines[l] =
        s.lines[l].followSummary n (s.alarmEvent n f).screens[n].mon.summary := by
      rw [hmon, ← hf, alarmEvent_eq]
      simp [Monitor.summarise]
    rw [hline]
    exact ⟨fun hmode howner => if_pos ⟨hmode, howner⟩, fun h => if_neg h⟩

/-- SILENT stops: its alarms are returned to CLEAR (R120). -/
theorem silentStops_clearsAlarms {m : Monitor} (hm : s.screens[n].mon = m) :
    ClearsAlarms n (fun id => 32 ≤ id.val ∧ id.val ≤ 47) m s (s.silentStops n) :=
  alarmEvent_clearsAlarms (congrArg _ hm) fun id => by rw [beq_iff_eq, classOf_silent]

/-- A fader level of 0 suppresses SILENT, and every suppressed alarm is returned to CLEAR (R120, R121). -/
theorem faderZeroHanded_clearsAlarms {m : Monitor} (hm : s.screens[n].mon = m) :
    ClearsAlarms n (SuppressedBy { m with handedFader := 0 }) { m with handedFader := 0 } s (s.faderZeroHanded n) :=
  alarmEvent_clearsAlarms (congrArg (fun m : Monitor => { m with handedFader := 0 }.clearSuppressed) hm) (suppressed_iff _)

end

/-! ### Leaving RUNNING -/

/-- A screen after it has left RUNNING, but for its meter and alarm unit (R47, R148). -/
def Screen.stopped (x : Screen) : Screen := { x with quiet := none, ctx := { x.ctx with failoverDue := false } }

theorem leaveRunning_running {s : State} {n : Fin 8} (h : s.screens[n].ctx.state = .running) :
    s.leaveRunning n = (s.modScreen n Screen.stopped).silentStops n := by
  rw [State.leaveRunning, if_pos h, State.setQuiet_eq, State.modCtx_eq, modScreen_modScreen]
  rfl

theorem leaveRunning_other {s : State} {n : Fin 8} (h : s.screens[n].ctx.state ≠ .running) : s.leaveRunning n = s := if_neg h

/-! ### The entries to STANDBY and RUNNING -/

/-- From DARK the screen selects its source and stands in STANDBY (R46). -/
theorem enterStandby_dark {s : State} {n : Fin 8} (h : s.screens[n].ctx.state = .dark) :
    s.enterStandby n = s.modCtx n fun c => { c.selectSource with state := .standby } := by
  rw [State.enterStandby, leaveRunning_other (by rw [h]; decide)]
  exact modScreen_congr (by simp only [h, if_true])

/-- From RUNNING the screen stops, and its SILENT alarms are returned to CLEAR (R47, R120, R148). -/
theorem enterStandby_running {s : State} {n : Fin 8} (h : s.screens[n].ctx.state = .running) :
    s.enterStandby n = (s.modScreen n fun x =>
      { x with quiet := none, ctx := { x.ctx with state := .standby, failoverDue := false } }).silentStops n := by
  rw [State.enterStandby, leaveRunning_running h, State.modCtx_eq, State.silentStops,
    alarmEvent_modScreen _ ?_, modScreen_modScreen]
  · have hdark : s.screens[n].ctx.state ≠ .dark := by rw [h]; decide
    exact congrArg (State.silentStops · n) (modScreen_congr (by simp only [Screen.stopped, hdark, if_false]))
  · exact fun _ _ => rfl

/-- Whether a configured port is in a state, as the statements write it. -/
theorem decide_portIs (s : State) (p : Option (Fin 12)) (st : PortState) :
    decide (∃ q, p = some q ∧ s.ports[q].state = st) = s.portIs p st := by
  rw [Bool.eq_iff_iff, decide_eq_true_iff, portIs_iff]

/-- The entry to RUNNING, once the source is selected, is `entersRunning` (R46, R50). -/
theorem entersRunning_eq (s : State) (c : Context) :
    (let d : Context := { c with state := .running, lastPosition := none, positionLost := false }
      if s.portIs d.primary .lost then d.armFailover else d) = entersRunning s c := by
  simp only [entersRunning, decide_portIs, Context.armFailover]
  cases s.portIs c.primary .lost with
  | false => simp
  | true =>
    by_cases ha : c.active = .primary
    · cases c.alternate.isSome <;> simp [ha]
    · simp [ha]

theorem enterRunning_dark {s : State} {n : Fin 8} (h : s.screens[n].ctx.state = .dark) :
    s.enterRunning n = s.modCtx n fun c => entersRunning s c.selectSource := by
  rw [State.enterRunning, State.modCtx_eq, State.modCtx_eq]
  refine modScreen_congr ?_
  simp only [h, if_true, ← entersRunning_eq]

theorem enterRunning_standby {s : State} {n : Fin 8} (h : s.screens[n].ctx.state = .standby) :
    s.enterRunning n = s.modCtx n (entersRunning s) := by
  rw [State.enterRunning, State.modCtx_eq, State.modCtx_eq]
  refine modScreen_congr ?_
  simp only [h, reduceCtorEq, if_false, ← entersRunning_eq]

/-! ### The entry to DARK -/

/-- A bank at rest stays as it is when it is put to rest again (R85). -/
theorem restedBank_restedBank (v : Vector Chain 16) : restedBank (restedBank v) = restedBank v := by
  simp [restedBank, Function.comp_def]

theorem restBank_a (e : Engine) : e.restBank .a = { e with bankA := restedBank e.bankA } := rfl

theorem restBank_b (e : Engine) : e.restBank .b = { e with bankB := restedBank e.bankB } := rfl

/-- The filter engine at the entry to DARK: a running crossfade ends on its incoming bank (R96, R99, R100). -/
theorem Engine.enterDark_eq (e : Engine) : e.enterDark =
    { e with active := selectedBank e, crossfade := none, fader := 0, fade := none, mute := false
             lines := Vector.replicate 16 [], bankA := restedBank e.bankA, bankB := restedBank e.bankB } := by
  have hended : e.endCrossfade = { e with active := selectedBank e, crossfade := none
                                          bankA := e.endCrossfade.bankA, bankB := e.endCrossfade.bankB } := by
    cases hx : e.crossfade with
    | none =>
      simp only [Engine.endCrossfade, selectedBank, hx]
      rw [← hx]
    | some x =>
      simp only [Engine.endCrossfade, selectedBank, hx]
      cases x.incoming <;> rfl
  have hbanks : restedBank e.endCrossfade.bankA = restedBank e.bankA ∧ restedBank e.endCrossfade.bankB = restedBank e.bankB := by
    unfold Engine.endCrossfade
    split
    · next x _ => cases x.incoming <;> simp only [otherBank, restBank_a, restBank_b, restedBank_restedBank, and_self]
    · exact ⟨rfl, rfl⟩
  rw [Engine.enterDark, restBank_a, restBank_b]
  simp only [hbanks]
  rw [hended]

/-- A screen after its entry to DARK, but for its meter and alarm unit (R45, R73, R96, R100, R148). -/
def Screen.darkened (x : Screen) : Screen :=
  { x with quiet := if x.ctx.state = .running then none else x.quiet
           ctx := { x.ctx with state := .dark, active := .none, activePort := none, requested := none, failoverDue := false
                               descTag := none, positionLost := false }
           eng := x.eng.enterDark
           dec := x.dec.resetSteering }

/-- With the fader at 0 every SILENT alarm is suppressed (R120). -/
theorem suppressed_of_silent {m : Monitor} {id : Fin 54} (hf : m.handedFader = 0) (h : classOf id = .silent) :
    m.suppressed id = true := by
  simp [Monitor.suppressed, hf, h]

/-- Of two returns to CLEAR in turn the wider one counts. -/
theorem clearWhere_clearWhere {p q : Fin 54 → Bool} (h : ∀ id, p id = true → q id = true) (m : Monitor) :
    (m.clearWhere p).clearWhere q = m.clearWhere q := by
  have halarm (id : Fin 54) :
      (if q id then alarmClear else if p id then alarmClear else m.alarms[id]) = if q id then alarmClear else m.alarms[id] := by
    cases hp : p id with
    | true => simp [h id hp]
    | false => simp
  simp only [Monitor.clearWhere, Fin.getElem_fin, Vector.getElem_ofFn, Fin.eta]
  exact congrArg (fun alarm => { m with alarms := Vector.ofFn alarm }) (funext halarm)

/-- A summary is formed from the alarms and the table alone (R129). -/
theorem summarise_summary (m : Monitor) (x : Option Nat) : { m with summary := x }.summarise = m.summarise := by
  simp only [Monitor.summarise, Monitor.formSummary, Monitor.levelOf, Monitor.record]

/-- Suppression reads neither the alarms nor the summary (R120, R121). -/
theorem clearWhere_suppressed (p : Fin 54 → Bool) (m : Monitor) : (m.clearWhere p).suppressed = m.suppressed := by
  funext id
  simp only [Monitor.suppressed, Monitor.record, Monitor.clearWhere]

theorem clearSuppressed_summary (m : Monitor) (x : Option Nat) :
    { m with summary := x }.clearSuppressed = { m.clearSuppressed with summary := x } := by
  have hsup : { m with summary := x }.suppressed = m.suppressed := by
    funext id
    simp only [Monitor.suppressed, Monitor.record]
  rw [Monitor.clearSuppressed, hsup]
  simp only [Monitor.clearSuppressed, Monitor.clearWhere]

/-- The return of SILENT to CLEAR on leaving RUNNING is part of the suppression that a fader level of 0 begins (R120). -/
theorem silentStops_faderZeroHanded (s : State) (n : Fin 8) : (s.silentStops n).faderZeroHanded n = s.faderZeroHanded n := by
  rw [State.silentStops, State.faderZeroHanded, alarmEvent_alarmEvent]
  refine alarmEvent_congr ?_
  generalize s.screens[n].mon = m
  generalize hp : (fun id => classOf id == .silent) = p
  have hhanded : { (m.clearWhere p).summarise with handedFader := 0 } =
      { { m with handedFader := 0 }.clearWhere p with summary := (m.clearWhere p).formSummary } := by
    simp only [Monitor.summarise, Monitor.clearWhere]
  have hsilent (id : Fin 54) (h : p id = true) : { m with handedFader := 0 }.suppressed id = true :=
    suppressed_of_silent rfl (by simpa [← hp] using h)
  rw [hhanded, clearSuppressed_summary, summarise_summary, Monitor.clearSuppressed, clearWhere_suppressed,
    clearWhere_clearWhere hsilent, ← Monitor.clearSuppressed]

/-- The entry to DARK is one change of the screen and one alarm event (R45, R120). -/
theorem enterDark_eq (s : State) (n : Fin 8) : s.enterDark n = (s.modScreen n Screen.darkened).faderZeroHanded n := by
  unfold State.enterDark
  simp only [State.modCtx_eq, State.modEng_eq, State.modDec_eq, modScreen_modScreen]
  by_cases h : s.screens[n].ctx.state = .running
  · rw [leaveRunning_running h, State.silentStops, alarmEvent_modScreen _ ?_, modScreen_modScreen]
    · refine (silentStops_faderZeroHanded _ n).trans (congrArg (State.faderZeroHanded · n) (modScreen_congr ?_))
      simp only [Screen.darkened, Screen.stopped, h, if_true]
    · exact fun _ _ => rfl
  · rw [leaveRunning_other h]
    exact congrArg (State.faderZeroHanded · n) (modScreen_congr (by simp only [Screen.darkened, h, if_false]))

/-! ### SCREEN-RESET -/

/-- With every alarm CLEAR no summary is left (R129, R132). -/
theorem reset_formSummary (m : Monitor) : m.reset.formSummary = none := by
  refine (formSummary_none _).2 fun id => ?_
  simp [Monitor.reset, Alarm.stands, alarmClear]

theorem reset_summarise (m : Monitor) : m.reset.summarise = { m.reset with summary := none } := by
  rw [Monitor.summarise, reset_formSummary]

/-- A screen after SCREEN-RESET, but for its meter and alarm unit (R43, R62, R83, R107, R155, R174). -/
def Screen.cleared (x : Screen) : Screen :=
  { x.darkened with ctx := { x.darkened.ctx with lastProgram := none, lastPosition := none }, link := x.link.reset
                    cues := x.cues.map Cue.rearm, quiet := none, notice := x.notice.reset }

/-- SCREEN-RESET is one change of the screen and one alarm event (R62, R132). -/
theorem resetScreen_eq (s : State) (n : Fin 8) : s.resetScreen n =
    (s.modScreen n Screen.cleared).alarmEvent n fun m => { m with handedFader := 0 }.reset := by
  unfold State.resetScreen
  simp only [State.modCtx_eq, State.modLink_eq, State.modCues_eq, State.setQuiet_eq, State.modNotice_eq, modScreen_modScreen]
  rw [enterDark_eq, State.faderZeroHanded, alarmEvent_modScreen _ ?_, modScreen_modScreen, alarmEvent_alarmEvent]
  · refine alarmEvent_congr ?_
    rw [reset_summarise, reset_summarise]
    simp only [Monitor.reset, Monitor.summarise, Monitor.clearSuppressed, Monitor.clearWhere]
  · exact fun _ _ => rfl

/-- An ALARM-mode line of a screen without a summary is open (R158). -/
theorem followSummary_none (n : Fin 8) (l : Line) :
    l.followSummary n none = if l.mode = .alarm ∧ l.owner = some n then { l with closed := false } else l := rfl

/-! ### The statements -/

section
variable {s : State} {n : Fin 8}

theorem changeState_dark (h : s.screens[n].ctx.state ≠ .dark) : s.changeState n .dark = s.enterDark n := if_neg h

theorem changeState_standby (h : s.screens[n].ctx.state ≠ .standby) : s.changeState n .standby = s.enterStandby n := if_neg h

theorem changeState_running (h : s.screens[n].ctx.state ≠ .running) : s.changeState n .running = s.enterRunning n := if_neg h

end

/-- Settles O19: one equation for each change of state. -/
theorem screenStateEntersTheNamedState : Obligations.ScreenStateEntersTheNamedState := by
  intro h target s
  refine under_screen (answerScreenState h target) rfl rfl rfl rfl fun n hn hx => ?_
  intro x c goes source run
  have hgoes {t : State} (ht : s.changeState n target = t) : goes t := by
    have hanswer : answerScreenState h target s = .done t [] := (onScreen_at hn _).trans (by rw [ht])
    exact hx.trans (congrArg Host.Outcome.next (outcome_done hanswer))
  have hsource : Context.selectSource = source := by
    funext c
    cases hp : c.primary <;> cases ha : c.alternate <;> simp [source, Context.selectSource, hp, ha]
  refine ⟨fun hs => hgoes (if_pos hs), fun hs ht => hgoes ?_, fun hs ht => hgoes ?_, fun hs ht => hgoes ?_,
    fun hs ht => ⟨_, hgoes rfl, ?_⟩, fun hs ht => ⟨_, hgoes rfl, ?_⟩⟩
  · subst ht
    rw [changeState_standby (by rw [hs]; decide), enterStandby_dark hs, hsource]
  · subst ht
    rw [changeState_running (by rw [hs]; decide), enterRunning_dark hs, hsource]
  · subst ht
    rw [changeState_running (by rw [hs]; decide), enterRunning_standby hs]
  · subst ht
    rw [changeState_standby (by rw [hs]; decide), enterStandby_running hs]
    exact silentStops_clearsAlarms (modScreen_mon rfl)
  · subst ht
    rw [changeState_dark hs, enterDark_eq]
    refine (congrArg (fun u => ClearsAlarms n _ _ u _) (modScreen_congr ?_)).mp
      (faderZeroHanded_clearsAlarms (modScreen_mon rfl))
    simp only [Screen.darkened, Engine.enterDark_eq]
    rfl

/-- Settles O20: a DARK screen or a role without a port refuses, and else the request is taken. -/
theorem screenSourceBecomesTheRequestedSource : Obligations.ScreenSourceBecomesTheRequestedSource := by
  intro h role s
  refine under_screen (answerScreenSource h role) rfl rfl rfl rfl fun n hn hx => ?_
  intro c absent
  have habsent : (c.portOf role).isNone = true ↔ absent := by cases role <;> simp [Context.portOf, absent]
  have hanswer : answerScreenSource h role s = _ := onScreen_at hn _
  refine ⟨fun hbad => ?_, fun hs hport => ⟨_, rfl, ?_⟩⟩
  · rw [hx, outcome_refuse (hanswer.trans (if_pos (hbad.imp id habsent.2)))]
  · rw [hx, outcome_done (hanswer.trans (if_neg fun hc => hc.elim hs fun ha => hport (habsent.1 ha)))]
    rfl

/-- Settles O21: `resetScreen_eq`, with the alarm event written out. -/
theorem screenResetClearsWhatWasLearned : Obligations.ScreenResetClearsWhatWasLearned := by
  intro h s
  refine under_screen (answerScreenReset h) rfl rfl rfl rfl fun n hn hx => ?_
  have hanswer : answerScreenReset h s = .done (s.resetScreen n) [] := onScreen_at hn _
  rw [hx, outcome_done hanswer, resetScreen_eq, alarmEvent_eq, State.modMon_eq, modScreen_modScreen]
  simp only [reset_summarise, reset_formSummary, followSummary_none, Screen.cleared, Screen.darkened, Engine.enterDark_eq]
  rfl

end Sys2Proof.Machine
end

-- Proofs/SignalPath: the arithmetic of the signal path (O57)
section
/-! The functions of the signal path in the terms of the statements: what is rounded and clamped is `clampSample` of `roundOff`, a
cascade is run by `cascadeOutput`, `cascadeAfter` and `CascadeClips`, and the sums over the channels that are not taken leave
nothing (R74, R76, R77, R80, R90, R91, R98). -/

namespace Sys2Proof.Machine

/-! ### Rounding and clamping -/

theorem roundBy_eq_roundOff (n : Nat) (x : Int) : roundBy n x = roundOff n x := rfl

@[simp] theorem saturateMarked_value (x : Int) : (saturateMarked x).value = clampSample x := rfl

/-- The mark tells a value that the clamp changed. -/
@[simp] theorem saturateMarked_clipped (x : Int) : (saturateMarked x).clipped = true ↔ clampSample x ≠ x := bne_iff_ne

/-- A sample stays as it is. -/
theorem clampSample_eq_self {x : Int} (hl : -8388608 ≤ x) (hu : x ≤ 8388607) : clampSample x = x := by
  unfold clampSample
  omega

theorem clampSample_above {x : Int} (h : 8388607 ≤ x) : clampSample x = 8388607 := by
  unfold clampSample
  omega

theorem clampSample_below {x : Int} (h : x ≤ -8388608) : clampSample x = -8388608 := by
  unfold clampSample
  omega

/-- What has been clamped is not changed by a further clamp. -/
theorem clampSample_clampSample (x : Int) : clampSample (clampSample x) = clampSample x :=
  clampSample_eq_self (le_max_left _ _) (max_le (by decide) (min_le_left _ _))

/-- A rounded value is the floor of the quotient of the value with half added. -/
theorem roundOff_bounds (n : Nat) (x : Int) :
    roundOff n x * 2 ^ n ≤ x + 2 ^ (n - 1) ∧ x + 2 ^ (n - 1) < (roundOff n x + 1) * 2 ^ n :=
  ⟨Int.ediv_mul_le _ (by positivity), Int.lt_ediv_add_one_mul_self _ (by positivity)⟩

theorem roundedClamped_saturateMarked (n : Nat) (x : Int) : RoundedClamped n x (saturateMarked (roundBy n x)) :=
  ⟨rfl, saturateMarked_clipped _⟩

/-- A sum with zeros for the items left out is the sum over the others. -/
theorem sum_map_ite_zero {α : Type} (p : α → Prop) [DecidablePred p] (f : α → Int) (l : List α) :
    (l.map fun a => if p a then f a else 0).sum = ((l.filter fun a => decide (p a)).map f).sum := by
  simp [List.sum_map_ite]

/-! ### Decode and fold-down -/

section
variable (d : Decoder) (x : Inputs)

/-- A role signal is the rounded sum over the format's inputs, clamped (R74). -/
theorem rowSignal_eq (i : Nat) (row : FormatRow) : d.rowSignal x i row = saturateMarked (roundOff 14
    (((List.finRange 16).filter fun j => j.val < d.format.inputs).map fun j => (d.rowCoefs i row)[j] * x[j]).sum) := by
  rw [Decoder.rowSignal, rowSum, sum_map_ite_zero, roundBy_eq_roundOff]

/-- The contributions folded onto a channel are those of the channels with that partner (R80). -/
theorem foldedSum_eq (m : Vector Marked 16) (k : Fin 16) : d.foldedSum m k =
    (((List.finRange 16).filter fun f => d.folds[f] == .folded k).map fun f => roundOff 14 (m[f].value * d.map[f].gain)).sum := by
  rw [Decoder.foldedSum, sum_map_ite_zero]
  simp only [Bool.decide_eq_true]
  rfl

end

section
variable {d : Decoder} {k : Fin 16}

/-- A folded or dropped channel has no input (R80). -/
theorem channelInput_away (h : d.folds[k] ≠ .normal) (m : Vector Marked 16) :
    d.channelInput m k = { value := 0, clipped := false } := if_pos h

/-- A channel with none folded onto it takes its own signal (R80). -/
theorem channelInput_alone (h : d.folds[k] = .normal) (hn : ∀ f : Fin 16, d.folds[f] ≠ .folded k) (m : Vector Marked 16) :
    d.channelInput m k = { value := m[k].value, clipped := false } := by
  have hnone : (List.finRange 16).any (fun f => d.foldsOnto f k) = false := by
    simpa [Decoder.foldsOnto] using hn
  rw [Decoder.channelInput, if_neg (not_not.2 h), hnone]
  rfl

/-- A channel with others folded onto it takes their contributions too, clamped once (R80). -/
theorem channelInput_shared (h : d.folds[k] = .normal) (hf : ∃ f : Fin 16, d.folds[f] = .folded k) (m : Vector Marked 16) :
    d.channelInput m k = saturateMarked (m[k].value + d.foldedSum m k) := by
  have hsome : (List.finRange 16).any (fun f => d.foldsOnto f k) = true := by
    simpa [Decoder.foldsOnto] using hf
  rw [Decoder.channelInput, if_neg (not_not.2 h), if_pos hsome]

end

/-! ### Sections, gain and path -/

/-- A section's output is its rounded sum, clamped (R90). -/
theorem Section.output_eq (c : Section) (x : Int) : c.output x = saturateMarked (sectionSum c x) := rfl

/-- A section's sum, with half added, decides its output and its mark (R90). -/
theorem Section.output_bounds (c : Section) (x : Int) :
    let sum := c.coefs.b0 * x + c.coefs.b1 * c.x1 + c.coefs.b2 * c.x2 - c.coefs.a1 * c.y1 - c.coefs.a2 * c.y2
    let y := c.output x
    (8388608 * 1048576 ≤ sum + 524288 → y.value = 8388607 ∧ y.clipped = true) ∧
    (sum + 524288 < -8388608 * 1048576 → y.value = -8388608 ∧ y.clipped = true) ∧
    (-8388608 * 1048576 ≤ sum + 524288 → sum + 524288 < 8388608 * 1048576 →
      y.value * 1048576 ≤ sum + 524288 ∧ sum + 524288 < (y.value + 1) * 1048576 ∧ y.clipped = false) := by
  intro sum y
  obtain ⟨hlow, hhigh⟩ : sectionSum c x * 1048576 ≤ sum + 524288 ∧ sum + 524288 < (sectionSum c x + 1) * 1048576 :=
    roundOff_bounds 20 sum
  have hy : y = saturateMarked (sectionSum c x) := c.output_eq x
  rw [hy, ← Bool.not_eq_true]
  simp only [saturateMarked_value, saturateMarked_clipped]
  refine ⟨fun h => ?_, fun h => ?_, fun hl hu => ?_⟩
  · rw [clampSample_above (by omega)]
    omega
  · rw [clampSample_below (by omega)]
    omega
  · rw [clampSample_eq_self (by omega) (by omega)]
    exact ⟨hlow, hhigh, not_not.2 rfl⟩

/-- A cascade run on an input: its output, its mark and the sections it leaves (R90). -/
theorem runSections_eq (x : Int) (l : List Section) :
    (runSections x l).1.value = cascadeOutput x l ∧ ((runSections x l).1.clipped = true ↔ CascadeClips x l) ∧
      (runSections x l).2 = cascadeAfter x l := by
  induction l generalizing x with
  | nil => simp [runSections, cascadeOutput, CascadeClips, cascadeAfter]
  | cons c l ih =>
    obtain ⟨hvalue, hclip, hafter⟩ := ih (clampSample (sectionSum c x))
    simp only [runSections, cascadeOutput, CascadeClips, cascadeAfter, Section.output_eq, saturateMarked_value, Bool.or_eq_true,
      saturateMarked_clipped, hvalue, hclip, hafter]
    exact ⟨trivial, trivial, rfl⟩

/-- A record's path output: its cascade's output times the gain, rounded and clamped, marked where a section or the clamp clips
(R88 to R91, R93). -/
theorem Chain.path_eq (c : Chain) (line : List Int) (fader : Nat) (x : Int) :
    let taken := delayed line c.delay x
    let out := roundOff 14 (cascadeOutput taken c.sections * gain c.trim fader)
    (c.path line fader x).value = clampSample out ∧
      ((c.path line fader x).clipped = true ↔ CascadeClips taken c.sections ∨ clampSample out ≠ out) := by
  obtain ⟨hvalue, hclip, -⟩ := runSections_eq (delayed line c.delay x) c.sections
  simp only [Chain.path, Bool.or_eq_true, saturateMarked_clipped, hvalue, hclip]
  exact ⟨rfl, Iff.rfl⟩

/-! ### Blend and steering -/

theorem blend_eq (old new : Int) (w : Nat) : blend old new w = roundOff 6 (old * (64 - w) + new * w) := rfl

/-- The target weight is at most 64 (R77). -/
theorem targetWeight_le {sum diff : Int} (h0 : 0 ≤ diff) (h : diff < sum) : targetWeight sum diff ≤ 64 := by
  have hquot : (targetWeight sum diff : Int) * (sum + diff) ≤ 64 * (sum + diff) :=
    (targetWeight_bounds h0 h).1.trans (by omega)
  exact Int.ofNat_le.1 (le_of_mul_le_mul_right hquot (by omega))

/-- The weight moves toward the target by at most the slew (R77). -/
theorem moveWeight_eq (slew weight target : Nat) :
    (weight ≤ target → moveWeight slew weight target = min target (weight + slew)) ∧
      (target ≤ weight → moveWeight slew weight target = max target (weight - slew)) := by
  unfold moveWeight
  split
  · omega
  · split <;> omega

/-! ### The statement -/

/-- Settles O57: one lemma for each rounding, clamp and blend. -/
theorem signalPathRoundsAndClamps : Obligations.SignalPathRoundsAndClamps := by
  refine ⟨fun c x => ?_, fun d x i row => ?_, fun d m k => ?_, fun c line fader x => c.path_eq line fader x, fun trim fader => ?_,
    fun old new w _ => roundOff_bounds 6 _, fun sum diff h0 => ⟨targetWeight_zero, fun h => ?_⟩, moveWeight_eq,
    fun _ _ _ => rfl⟩
  · obtain ⟨habove, hbelow, hwithin⟩ := c.output_bounds x
    exact ⟨habove, hbelow, hwithin, fun _ => rfl⟩
  · rw [rowSignal_eq]
    exact roundedClamped_saturateMarked 14 _
  · refine ⟨fun h => ?_, fun h hn => ?_, fun h hf => ?_⟩
    · rw [channelInput_away h]
      exact ⟨rfl, rfl⟩
    · rw [channelInput_alone h hn]
      exact ⟨rfl, rfl⟩
    · rw [channelInput_shared h hf, foldedSum_eq]
      exact ⟨rfl, saturateMarked_clipped _⟩
  · exact roundOff_bounds 14 _
  · obtain ⟨hlow, hhigh⟩ := targetWeight_bounds h0 h
    exact ⟨hlow, hhigh, targetWeight_le h0 h⟩

end Sys2Proof.Machine
end

-- Proofs/ScreenAudio: what a master frame makes of one screen's signals
section
/-! The decode unit and the filter engine of a screen that plays, in the terms of the statements: the channel inputs are
`channelSample`, a bank's path is `pathSum` clamped, and each mark of a clip is the clip that the statements name (R74 to R76, R78,
R80, R88 to R93, R98). -/

namespace Sys2Proof.Machine

/-! ### The channel inputs -/

section
variable (d : Decoder) (x : Inputs) (k : Fin 16)

/-- A channel's mapped signal is its role's rounded sum, clamped, or zero where no row produces the role (R74, R75, R78). -/
theorem mapped_eq : d.mapped x k = saturateMarked (roleSum d x k) := by
  unfold Decoder.mapped roleSum
  cases d.map[k].role with
  | none => rfl
  | some role =>
    simp only [Option.bind_some, Decoder.roleSignal, List.findIdx?_eq_fst_find?_zipIdx]
    cases hfind : d.format.rows.zipIdx.find? fun e => e.1.role == role with
    | none => rfl
    | some e =>
      obtain ⟨row, i⟩ := e
      have hrow : d.format.rows[i]? = some row := List.mem_zipIdx_iff_getElem?.1 (List.mem_of_find?_eq_some hfind)
      simp only [rowSignal_eq, Decoder.rowCoefs, List.getD_eq_getElem?_getD, Option.map_some, Option.getD_some, hrow]

/-- A channel's own signal with what is folded onto it (R80). -/
theorem foldedMix_eq : foldedMix d x k = (d.mappedAll x)[k].value + d.foldedSum (d.mappedAll x) k := by
  rw [foldedSum_eq]
  simp [foldedMix, mappedSample, Decoder.mappedAll, mapped_eq]

/-- A channel with none folded onto it has its own signal alone (R80). -/
theorem foldedMix_alone {d : Decoder} {k : Fin 16} (hn : ∀ f : Fin 16, d.folds[f] ≠ .folded k) :
    foldedMix d x k = mappedSample d x k := by
  have hnone : ((List.finRange 16).filter fun f => d.folds[f] == .folded k) = [] :=
    List.filter_eq_nil_iff.2 fun f _ => by simpa using hn f
  rw [foldedMix, hnone, List.map_nil, List.sum_nil, Int.add_zero]

/-- A channel's input, and the mark of the fold's own clamp (R80). -/
theorem channelInput_eq : (d.channelInput (d.mappedAll x) k).value = channelSample d x k ∧
    ((d.channelInput (d.mappedAll x) k).clipped = true ↔
      d.folds[k] = .normal ∧ clampSample (foldedMix d x k) ≠ foldedMix d x k) := by
  by_cases h : d.folds[k] = .normal
  · rw [channelSample, if_pos h]
    by_cases hf : ∃ f : Fin 16, d.folds[f] = .folded k
    · rw [channelInput_shared h hf, ← foldedMix_eq, saturateMarked_clipped]
      exact ⟨rfl, (and_iff_right h).symm⟩
    · have hn : ∀ f : Fin 16, d.folds[f] ≠ .folded k := fun f hk => hf ⟨f, hk⟩
      have hkept : clampSample (foldedMix d x k) = foldedMix d x k := by
        rw [foldedMix_alone x hn]
        exact clampSample_clampSample _
      rw [channelInput_alone h hn, hkept, foldedMix_alone x hn]
      simp [Decoder.mappedAll, mapped_eq, mappedSample]
  · rw [channelInput_away h, channelSample, if_neg h]
    exact ⟨rfl, iff_of_false Bool.false_ne_true fun hk => h hk.1⟩

/-- What a channel hands to the filter engine, marked where the decode or the fold clipped it (R75, R80). -/
theorem channelInputs_eq : (d.channelInputs x)[k].value = channelSample d x k ∧
    ((d.channelInputs x)[k].clipped = true ↔ clampSample (roleSum d x k) ≠ roleSum d x k ∨
      (d.folds[k] = .normal ∧ clampSample (foldedMix d x k) ≠ foldedMix d x k)) := by
  obtain ⟨hvalue, hclip⟩ := channelInput_eq d x k
  have hget : (d.channelInputs x)[k] =
      { value := (d.channelInput (d.mappedAll x) k).value
        clipped := (d.channelInput (d.mappedAll x) k).clipped || (d.mappedAll x)[k].clipped } := by
    simp [Decoder.channelInputs]
  have hmapped : (d.mappedAll x)[k] = saturateMarked (roleSum d x k) := by simp [Decoder.mappedAll, mapped_eq]
  rw [hget, hmapped]
  simp only [Bool.or_eq_true, hclip, saturateMarked_clipped]
  exact ⟨hvalue, or_comm⟩

end

/-! ### The paths of the banks -/

section
variable (e : Engine) (c : Fin 16) (x : Int)

/-- A bank's path output and its mark (R88 to R91, R93). -/
theorem bankPath_eq (k : Bank) : ((e.bank k)[c].path e.lines[c] e.fader x).value = clampSample (pathSum e k c x) ∧
    (((e.bank k)[c].path e.lines[c] e.fader x).clipped = true ↔ PathClips e k c x) := Chain.path_eq _ _ _ x

/-- A bank is run in a frame where it is active or a crossfade runs (R85). -/
theorem runs_iff (k : Bank) : e.advanceFade.runs k = true ↔ e.crossfade.isSome = true ∨ e.active = k := by
  simp [Engine.runs, Engine.advanceFade]

theorem exists_bank_iff (p : Bank → Prop) (k : Bank) : (∃ j, p j) ↔ p (otherBank k) ∨ p k := by
  refine ⟨fun ⟨j, hj⟩ => ?_, fun h => h.elim (fun h => ⟨_, h⟩) fun h => ⟨_, h⟩⟩
  cases j <;> cases k <;> simp [otherBank, hj]

/-- Without a crossfade the pre-mute output is the active bank's path (R88). -/
theorem preMute_steady {e : Engine} (h : e.crossfade = none) :
    e.advanceFade.preMute c x = (e.bank e.active)[c].path e.lines[c] e.fader x := by
  have hnone : e.advanceFade.crossfade = none := by rw [Engine.advanceFade, h]; rfl
  rw [Engine.preMute, hnone]
  rfl

/-- During a crossfade it is the blend of the two banks' paths at the next frame number (R98). -/
theorem preMute_fading {e : Engine} {y : Crossfade} (h : e.crossfade = some y) :
    let old := (e.bank (otherBank y.incoming))[c].path e.lines[c] e.fader x
    let new := (e.bank y.incoming)[c].path e.lines[c] e.fader x
    e.advanceFade.preMute c x =
      { value := blend old.value new.value (y.frame + 1), clipped := old.clipped || new.clipped } := by
  have hsome : e.advanceFade.crossfade = some { y with frame := y.frame + 1 } := by rw [Engine.advanceFade, h]; rfl
  rw [Engine.preMute, hsome]
  rfl

/-- A clip is marked on an output where the path of a bank that runs clips (R93). -/
theorem preMute_clipped : (e.advanceFade.preMute c x).clipped = true ↔
    ∃ k, (e.crossfade.isSome = true ∨ e.active = k) ∧ PathClips e k c x := by
  cases h : e.crossfade with
  | none =>
    rw [preMute_steady c x h, (bankPath_eq e c x _).2]
    simp
  | some y =>
    rw [preMute_fading c x h, Bool.or_eq_true, (bankPath_eq e c x _).2, (bankPath_eq e c x _).2]
    simp [exists_bank_iff _ y.incoming]

end

/-! ### The engine after a frame -/

section
variable (e : Engine) (x : Inputs) (c : Fin 16)

/-- A frame changes an engine's banks, lines, outputs and crossfade alone (R85, R88, R89, R98). -/
theorem afterFrame_rest : e.advanceFade.afterFrame x = { e with
    bankA := (e.advanceFade.afterFrame x).bankA, bankB := (e.advanceFade.afterFrame x).bankB
    lines := (e.advanceFade.afterFrame x).lines, outputs := (e.advanceFade.afterFrame x).outputs
    crossfade := e.crossfade.map fun y => { y with frame := y.frame + 1 } } := rfl

/-- The output is zero under mute and the pre-mute output otherwise (R88, R92). -/
theorem afterFrame_output : (e.advanceFade.afterFrame x).outputs[c] =
    if e.mute then 0 else (e.advanceFade.preMute c x[c]).value := by
  simp only [Engine.afterFrame, Engine.frameOutputs, Fin.getElem_fin, Vector.getElem_ofFn]
  rfl

/-- The line takes the input, up to the channel's allocation (R89). -/
theorem afterFrame_line : (e.advanceFade.afterFrame x).lines[c] =
    (x[c] :: e.lines[c]).take (max e.bankA[c].delay e.bankB[c].delay) := by
  simp [Engine.afterFrame, writeLine, Engine.delayAllocation, Engine.advanceFade]

theorem afterFrame_bank (k : Bank) : (e.advanceFade.afterFrame x).bank k = e.advanceFade.runBank k x := by
  cases k <;> rfl

/-- The sections of a bank that runs have shifted (R85, R90). -/
theorem afterFrame_runs {k : Bank} (h : e.crossfade.isSome = true ∨ e.active = k) :
    ((e.advanceFade.afterFrame x).bank k)[c] =
      { (e.bank k)[c] with sections := cascadeAfter (delayedSample e k c x[c]) (e.bank k)[c].sections } := by
  have hrun : (e.bank k)[c].run e.lines[c] x[c] =
      { (e.bank k)[c] with sections := cascadeAfter (delayedSample e k c x[c]) (e.bank k)[c].sections } := by
    rw [Chain.run, (runSections_eq _ _).2.2]
    rfl
  rw [afterFrame_bank, Engine.runBank, if_pos ((runs_iff e k).2 h), ← hrun]
  simp [Engine.advanceFade, Engine.bank]

/-- The other bank stays (R85). -/
theorem afterFrame_rests {k : Bank} (h : ¬(e.crossfade.isSome = true ∨ e.active = k)) :
    (e.advanceFade.afterFrame x).bank k = e.bank k := by
  rw [afterFrame_bank, Engine.runBank, if_neg (mt (runs_iff e k).1 h)]
  rfl

end

/-! ### The screen after a frame -/

section
variable {x : Screen} (h : x.ctx.state ≠ .dark) (ins : Inputs)
include h

/-- A screen that plays is decoded, filtered and metered (R74, R76, R88, R108). -/
theorem frame_playing : x.frame ins =
    let e := x.eng.advanceFade.afterFrame (values (x.dec.channelInputs ins))
    { x with dec := x.dec.follow ins, eng := e
             mon := { x.mon with meters := Vector.ofFn fun c => x.mon.meters[c].take e.outputs[c] } } := by
  unfold Screen.frame
  cases hs : x.ctx.state with
  | dark => exact absurd hs h
  | standby | running => rfl

/-- A channel clips in a frame where its decode, its fold or a bank that runs does (R75, R80, R93). -/
theorem mem_frameClips (c : Fin 16) : c ∈ x.frameClips ins ↔
    clampSample (roleSum x.dec ins c) ≠ roleSum x.dec ins c ∨
    (x.dec.folds[c] = .normal ∧ clampSample (foldedMix x.dec ins c) ≠ foldedMix x.dec ins c) ∨
    ∃ k, (x.eng.crossfade.isSome = true ∨ x.eng.active = k) ∧ PathClips x.eng k c (channelSample x.dec ins c) := by
  obtain ⟨hvalue, hclip⟩ := channelInputs_eq x.dec ins c
  have hmem : c ∈ x.frameClips ins ↔ (x.dec.channelInputs ins)[c].clipped = true ∨
      (x.eng.advanceFade.preMute c (x.dec.channelInputs ins)[c].value).clipped = true := by
    unfold Screen.frameClips
    cases hs : x.ctx.state with
    | dark => exact absurd hs h
    | standby | running => simp
  rw [hmem, hclip, hvalue, preMute_clipped, or_assoc]

end

theorem nodup_frameClips (x : Screen) (ins : Inputs) : (x.frameClips ins).Nodup := by
  unfold Screen.frameClips
  split
  · exact List.nodup_nil
  · exact (List.nodup_finRange 16).filter _
  · exact (List.nodup_finRange 16).filter _

/-- The envelopes of a steered format follow the sum and the difference of its two columns (R76). -/
theorem follow_steered {d : Decoder} {st : Steering} (h : d.format.steering = some st) (ins : Inputs) :
    let follow (env sample : Int) : Int := env + (sampleMagnitude (sample / 2) - env) / 2 ^ st.shift
    d.follow ins = { d with sumEnv := follow d.sumEnv (ins[st.first] + ins[st.second])
                            diffEnv := follow d.diffEnv (ins[st.first] - ins[st.second]) } := by
  rw [Decoder.follow, h]
  rfl

/-- An unsteered format has no envelopes to follow (R76). -/
theorem follow_unsteered {d : Decoder} (h : d.format.steering = none) (ins : Inputs) : d.follow ins = d := by
  rw [Decoder.follow, h]

end Sys2Proof.Machine
end

-- Proofs/MasterFrame: the signal path in a master frame (O47)
section
/-! A master frame plays each screen once, among operations that leave its decode unit, its engine and its CLIP alarms as they are.
`AudioKept` says what such an operation keeps of a screen, and `masterFrame_plays` what the whole frame makes of one. -/

namespace Sys2Proof.Machine

/-! ### What the other operations of a master frame keep of a screen -/

/-- The context, the decode unit and the engine of a screen stay, and of its meter and alarm unit all but alarms, pending set, marks
and summary; the alarm `id` stays, and remains pending where it was. -/
structure AudioKept (id : Fin 54) (x y : Screen) : Prop where
  ctx : y.ctx = x.ctx
  dec : y.dec = x.dec
  eng : y.eng = x.eng
  mon : y.mon = { x.mon with alarms := y.mon.alarms, pending := y.mon.pending, marks := y.mon.marks, summary := y.mon.summary }
  alarm : y.mon.alarms[id] = x.mon.alarms[id]
  pending : x.mon.pending[id].isSome = true → y.mon.pending[id].isSome = true

section
variable {id : Fin 54} {x y z : Screen}

theorem AudioKept.refl (id : Fin 54) (x : Screen) : AudioKept id x x := ⟨rfl, rfl, rfl, rfl, rfl, fun h => h⟩

theorem AudioKept.trans (h : AudioKept id x y) (k : AudioKept id y z) : AudioKept id x z where
  ctx := k.ctx.trans h.ctx
  dec := k.dec.trans h.dec
  eng := k.eng.trans h.eng
  mon := by rw [k.mon, h.mon]
  alarm := k.alarm.trans h.alarm
  pending hp := k.pending (h.pending hp)

theorem AudioKept.record (h : AudioKept id x y) (i : Fin 54) : y.mon.record i = x.mon.record i := by
  rw [h.mon]
  rfl

theorem AudioKept.watches (h : AudioKept id x y) (i : Fin 54) : y.mon.watches i = x.mon.watches i := by
  rw [h.mon]
  rfl

/-- A screen as one occurrence of the alarm `i` leaves it (R116, R129). -/
def Screen.occurred (i : Fin 54) (x : Screen) : Screen := { x with mon := (x.mon.offer i).summarise }

/-- An occurrence of another alarm keeps what the signal path needs (R116). -/
theorem audioKept_occurred {i : Fin 54} (h : id ≠ i) (x : Screen) : AudioKept id x (x.occurred i) := by
  obtain ⟨halarm, hpending⟩ := offer_other h x.mon
  refine ⟨rfl, rfl, rfl, ?_, halarm, fun hp => (congrArg (·.isSome) hpending).trans hp⟩
  simp only [Screen.occurred, Monitor.summarise]
  rw [offer_rest x.mon i]

end

/-- From `s` to `t`, what the signal path of screen `n` and its alarm `id` need is kept. -/
def Kept (n : Fin 8) (id : Fin 54) (s t : State) : Prop := AudioKept id s.screens[n] t.screens[n]

section
variable {n : Fin 8} {id : Fin 54}

theorem Kept.refl (s : State) : Kept n id s s := AudioKept.refl id _

theorem Kept.trans (s t u : State) (h : Kept n id s t) (k : Kept n id t u) : Kept n id s u := AudioKept.trans h k

theorem kept_of_screens {s t : State} (h : t.screens = s.screens) : Kept n id s t := by
  unfold Kept
  rw [h]
  exact .refl id _

theorem kept_modArb (p : Fin 12) (f : Arbiter → Arbiter) (s : State) : Kept n id s (s.modArb p f) := kept_of_screens rfl

/-- An update of a screen that keeps what is needed, if it is screen `n`. -/
theorem kept_modScreen {s : State} {m : Fin 8} {f : Screen → Screen} (h : m = n → AudioKept id s.screens[n] (f s.screens[n])) :
    Kept n id s (s.modScreen m f) := by
  unfold Kept
  simp only [Fin.getElem_fin, State.modScreen_get]
  split
  · next hm => subst hm; exact h rfl
  · exact .refl id _

/-! ### The steps that are due -/

theorem kept_messageSent (p : Fin 12) (s : State) : Kept n id s (s.messageSent p) := by
  unfold State.messageSent State.freeChannel
  split
  · next m _ =>
    split
    · cases m.owner with
      | resp =>
        simp only
        split
        · exact kept_of_screens rfl
        · exact kept_of_screens rfl
      | screen k =>
        exact .trans _ _ _ (kept_modArb p _ s) (kept_modScreen fun _ => ⟨rfl, rfl, rfl, rfl, rfl, fun h => h⟩)
    · exact .refl s
  · exact .refl s

theorem kept_endCrossfade (k : Fin 8) {s : State} (h : s.screens[n].eng.crossfadeOver = false) : Kept n id s (s.endCrossfade k) := by
  unfold State.endCrossfade
  split
  · next hk =>
    refine kept_modScreen fun hn => ?_
    rw [hn, h] at hk
    cases hk
  · exact .refl s

/-- A choice of notice marks its alarm noticed, and lets none that was pending go (R161, R162). -/
theorem kept_choose (k : Fin 8) (s : State) : Kept n id s (s.choose k) := by
  unfold State.choose
  simp only
  split
  · next src level _ _ _ =>
    refine kept_modScreen fun _ => ?_
    cases src with
    | mark cue => exact ⟨rfl, rfl, rfl, rfl, rfl, fun h => h⟩
    | alarm i =>
      refine ⟨rfl, rfl, rfl, rfl, rfl, fun h => ?_⟩
      simp only [Monitor.noticed, Fin.getElem_fin, Vector.getElem_set]
      split
      · rfl
      · exact h
  · exact .refl s

/-- With no reset pending and no crossfade of the screen due to end, what is due before a frame keeps what is needed. -/
theorem kept_settleDue {s : State} (hr : s.resetPending = none) (h : s.screens[n].eng.crossfadeOver = false) :
    Kept n id s s.settleDue := by
  have hsent : DueTaken s (forPorts State.messageSent s) := forEach_keeps .refl .trans _ dueTaken_messageSent _ s
  have hreset : (forPorts State.messageSent s).takeDueReset = forPorts State.messageSent s := by
    simp [State.takeDueReset, hsent.reset hr]
  have hkept : Kept n id s (forPorts State.messageSent s) := forEach_keeps .refl .trans _ kept_messageSent _ s
  have hended : ∀ t : State, t.screens[n].eng.crossfadeOver = false → Kept n id t (forScreens State.endCrossfade t) :=
    forEach_keeps (R := fun t u => t.screens[n].eng.crossfadeOver = false → Kept n id t u) (fun t _ => .refl t)
      (fun t u v htu huv ht => .trans _ _ _ (htu ht) (huv (by rw [(htu ht).eng, ht]))) _ (fun k _ => kept_endCrossfade k) _
  have hchosen (t : State) : Kept n id t (forScreens State.choose t) := forEach_keeps .refl .trans _ kept_choose _ t
  unfold State.settleDue
  rw [hreset]
  exact .trans _ _ _ hkept (.trans _ _ _ (hended _ (by rw [hkept.eng, h])) (hchosen _))

/-! ### Reading and sending -/

/-- An occurrence of another alarm, or at another screen (R116). -/
theorem kept_occur {s : State} {m : Fin 8} {i : Fin 54} (h : m = n → id ≠ i) : Kept n id s (s.occur m i) := by
  have hscreens : (s.occur m i).screens = (s.modScreen m (Screen.occurred i)).screens := by
    rw [State.occur, alarmEvent_eq]
    rfl
  exact .trans _ _ _ (kept_modScreen fun hm => audioKept_occurred (h hm) _) (kept_of_screens hscreens)

theorem occur_screen (s : State) (i : Fin 54) : (s.occur n i).screens[n] = s.screens[n].occurred i := by
  rw [State.occur, alarmEvent_eq]
  exact State.modScreen_same s n (Screen.occurred i)

/-- A read raises no alarm but SLIP (R12, R113). -/
theorem kept_readPort (h : id ≠ slipId) (p : Fin 12) (s : State) : Kept n id s (s.readPort p) := by
  have hslip (t : State) : Kept n id t (t.slipEvent p) := by
    refine forEach_keeps .refl .trans _ (fun m u => ?_) _ t
    split
    · exact kept_occur fun _ => h
    · exact .refl u
  have hread : Kept n id s (s.modPort p Port.afterRead) := kept_of_screens rfl
  unfold State.readPort
  simp only
  split
  · exact .trans _ _ _ hread (hslip _)
  · exact hread

theorem kept_sendForward (index : Nat) (m : Fin 8) (s : State) : Kept n id s (s.sendForward index m) :=
  kept_modScreen fun _ => ⟨rfl, rfl, rfl, rfl, rfl, fun h => h⟩

theorem kept_occupy (p : Fin 12) (q : Requester) (s : State) : Kept n id s (s.occupy p q) := by
  unfold State.occupy
  cases q with
  | resp => exact kept_of_screens rfl
  | screen m =>
    simp only
    split
    · exact .trans _ _ _ (kept_modArb p _ s) (kept_modScreen fun _ => ⟨rfl, rfl, rfl, rfl, rfl, fun h => h⟩)
    · exact .refl s

theorem kept_grant (p : Fin 12) (s : State) : Kept n id s (s.grant p) := by
  unfold State.grant
  split
  · split
    · exact .trans _ _ _ (kept_modArb p _ s) (kept_occupy p _ _)
    · split
      · exact .trans _ _ _ (kept_modArb p _ s) (kept_occupy p _ _)
      · exact .refl s
  · exact .refl s

theorem kept_sendReturn (index : Nat) (p : Fin 12) (s : State) : Kept n id s (s.sendReturn index p) := by
  unfold State.sendReturn
  split
  · exact kept_of_screens rfl
  · exact .trans _ _ _ (kept_grant p s) (kept_of_screens rfl)

end

/-! ### One item among others -/

section
variable {α : Type} {R : State → State → Prop} (refl : ∀ s, R s s) (trans : ∀ s t u, R s t → R t u → R s u)
  {f : α → State → State} {a : α} (others : ∀ b s, b ≠ a → R s (f b s))
include refl trans others

/-- A repetition without item `a` keeps what every other item keeps. -/
theorem forEach_without {items : List α} (ha : a ∉ items) (s : State) : R s (forEach items f s) := by
  induction items generalizing s with
  | nil => exact refl s
  | cons b items ih =>
    have hb : b ≠ a := fun h => ha (h ▸ List.mem_cons_self)
    exact trans _ _ _ (others b s hb) (ih (fun h => ha (List.mem_cons_of_mem b h)) (f b s))

/-- A repetition acts once at item `a`, among operations that keep what every other item keeps. -/
theorem forEach_once {items : List α} (hd : items.Nodup) (ha : a ∈ items) (s : State) :
    ∃ u, R s u ∧ R (f a u) (forEach items f s) := by
  obtain ⟨before, after, rfl⟩ := List.append_of_mem ha
  obtain ⟨-, hafter, hdisjoint⟩ := List.nodup_append'.1 hd
  have hbefore : a ∉ before := fun h => hdisjoint h List.mem_cons_self
  refine ⟨forEach before f s, forEach_without refl trans others hbefore s, ?_⟩
  have hsplit : forEach (before ++ a :: after) f s = forEach after f (f a (forEach before f s)) := by
    simp [forEach, List.foldl_append]
  rw [hsplit]
  exact forEach_without refl trans others (List.nodup_cons.1 hafter).1 _

end

/-! ### Playing -/

theorem clipId_injective {a b : Fin 16} (h : clipId a = clipId b) : a = b := Fin.ext (Fin.mk.inj h)

theorem clipId_ne_slipId (c : Fin 16) : clipId c ≠ slipId := fun h => by
  have : c.val = 49 := congrArg Fin.val h
  omega

/-- `y` is the screen `x` after a frame with inputs `ins`, as far as its signal path and the CLIP alarm of channel `c` show: it has
played, and where the channel clipped the alarm has taken one occurrence (R113). -/
def Plays (ins : Inputs) (c : Fin 16) (x y : Screen) : Prop :=
  (c ∉ x.frameClips ins → AudioKept (clipId c) (x.frame ins) y) ∧
  (c ∈ x.frameClips ins → ∃ z, AudioKept (clipId c) (x.frame ins) z ∧ AudioKept (clipId c) (z.occurred (clipId c)) y)

section
variable {n : Fin 8} {ins : Inputs} {c : Fin 16}

theorem Plays.kept {x y z : Screen} (h : Plays ins c x y) (k : AudioKept (clipId c) y z) : Plays ins c x z :=
  ⟨fun hc => (h.1 hc).trans k, fun hc => (h.2 hc).imp fun _ ⟨hz, hy⟩ => ⟨hz, hy.trans k⟩⟩

theorem playScreen_plays (s : State) : Plays ins c s.screens[n] (s.playScreen n ins).screens[n] := by
  have hothers (b : Fin 16) (t : State) (hb : b ≠ c) : Kept n (clipId c) t (t.occur n (clipId b)) :=
    kept_occur fun _ h => hb (clipId_injective h).symm
  have hframe : (s.modScreen n (Screen.frame ins)).screens[n] = s.screens[n].frame ins := State.modScreen_same s n _
  refine ⟨fun hc => ?_, fun hc => ?_⟩
  · rw [← hframe]
    exact forEach_without (R := Kept n (clipId c)) .refl .trans hothers hc _
  · obtain ⟨u, hu, ht⟩ := forEach_once (R := Kept n (clipId c)) .refl .trans hothers (nodup_frameClips _ ins) hc
      (s.modScreen n (Screen.frame ins))
    rw [← hframe]
    refine ⟨u.screens[n], hu, ?_⟩
    rw [← occur_screen]
    exact ht

/-- A frame of another screen keeps what screen `n` needs. -/
theorem kept_playScreen {id : Fin 54} {m : Fin 8} (h : m ≠ n) (s : State) : Kept n id s (s.playScreen m ins) :=
  .trans _ _ _ (kept_modScreen fun hm => absurd hm h)
    (forEach_keeps (R := Kept n id) .refl .trans _ (fun _ _ => kept_occur fun hm => absurd hm h) _ _)

/-- The slots a screen takes in a frame are the inputs of its decode (R12, R66). -/
theorem inputsOf_screenSlots {s t : State} (hports : t.ports = s.ports) (hctx : t.screens[n].ctx = s.screens[n].ctx) :
    inputsOf (t.screenSlots n) = decodeInputs s n := by
  rw [State.screenSlots, hctx, hports, inputsOf, decodeInputs]
  cases s.screens[n].ctx.activePort <;> rfl

/-- With no reset pending and no crossfade of the screen due to end, a master frame plays each screen once, with the inputs of its
decode (R12, R66, R88). -/
theorem masterFrame_plays {s : State} (hr : s.resetPending = none) (h : s.screens[n].eng.crossfadeOver = false) (c : Fin 16) :
    ∃ x, AudioKept (clipId c) s.screens[n] x ∧ Plays (decodeInputs s n) c x s.masterFrame.screens[n] := by
  have hdue : Kept n (clipId c) s s.settleDue := kept_settleDue hr h
  have hinputs := inputsOf_screenSlots (dueTaken_settleDue hr).parts.ports hdue.ctx
  unfold State.masterFrame
  generalize s.settleDue = d at hdue hinputs ⊢
  simp only
  have hread : Kept n (clipId c) d (forPorts State.readPort d) :=
    forEach_keeps .refl .trans _ (kept_readPort (clipId_ne_slipId c)) _ d
  generalize forPorts State.readPort d = r at hread ⊢
  generalize hv : (Vector.ofFn fun m => inputsOf (d.screenSlots m) : Vector Inputs 8) = inputs
  have hn : inputs[n] = decodeInputs s n := by
    rw [← hinputs, ← hv]
    simp
  obtain ⟨u, hu, hplayed⟩ := forEach_once (R := Kept n (clipId c)) (f := fun m t => t.playScreen m inputs[m]) .refl .trans
    (fun m t hm => kept_playScreen hm t) (List.nodup_finRange 8) (List.mem_finRange n) r
  have hsent (i : Nat) (t : State) : Kept n (clipId c) t (forPorts (State.sendReturn i) (forScreens (State.sendForward i) t)) :=
    .trans _ _ _ (forEach_keeps .refl .trans _ (kept_sendForward i) _ t) (forEach_keeps .refl .trans _ (kept_sendReturn i) _ _)
  refine ⟨u.screens[n], AudioKept.trans hdue (AudioKept.trans hread hu), ?_⟩
  rw [← hn]
  exact ((playScreen_plays u).kept hplayed).kept (hsent d.frameIndex _)

end

/-! ### The CLIP alarms -/

/-- What an occurrence makes of an alarm that takes it (R116). -/
theorem occurrence_atOccurrence (r : ClassRecord) (a : Alarm) : AtOccurrence r a (a.occurrence r).1 := by
  refine ⟨fun h => ⟨fun hc => ?_, fun hc => ?_⟩, fun h => ⟨fun hc => ?_, fun hc => ?_⟩, fun h => ?_, fun h => ?_⟩
  · simp only [Alarm.occurrence, h, hc, if_true, raisedInstance]
  · simp only [Alarm.occurrence, h, Nat.not_le.2 hc, if_false]
  · simp only [Alarm.occurrence, h, hc, if_true, raisedInstance]
  · simp only [Alarm.occurrence, h, Nat.not_le.2 hc, if_false]
  · simp only [Alarm.occurrence, h]
  · simp only [Alarm.occurrence, h, raisedInstance]

/-- An entry into RAISED from CLEAR or QUALIFYING is told (R118). -/
theorem occurrence_entersRaised {r : ClassRecord} {a : Alarm} (ha : a.state = .clear ∨ a.state = .qualifying)
    (h : (a.occurrence r).1.state = .raised) : (a.occurrence r).2 = true := by
  unfold Alarm.occurrence at h ⊢
  rcases ha with ha | ha
  · simp only [ha] at h ⊢
    split at h
    · next hc => rw [if_pos hc]
    · cases h
  · simp only [ha] at h ⊢
    split at h
    · next hc => rw [if_pos hc]
    · cases h

section
variable {ins : Inputs} {c : Fin 16} {w x y : Screen}

/-- A screen that plays has the decode unit and the engine of its frame. -/
theorem Plays.parts (h : Plays ins c x y) : y.dec = (x.frame ins).dec ∧ y.eng = (x.frame ins).eng := by
  by_cases hc : c ∈ x.frameClips ins
  · obtain ⟨z, hz, hy⟩ := h.2 hc
    exact ⟨hy.dec.trans hz.dec, hy.eng.trans hz.eng⟩
  · exact ⟨(h.1 hc).dec, (h.1 hc).eng⟩

/-- Before its clips a frame changes the meters of a screen's meter and alarm unit alone (R108). -/
theorem frame_mon (hs : x.ctx.state ≠ .dark) : ∃ meters, (x.frame ins).mon = { x.mon with meters := meters } := by
  rw [frame_playing hs]
  exact ⟨_, rfl⟩

/-- The CLIP alarm of a channel that did not clip, or that is not watched, stays (R110, R113). -/
theorem Plays.alarm_stays (h : Plays ins c x y) (hs : x.ctx.state ≠ .dark)
    (hc : c ∉ x.frameClips ins ∨ ¬Watched x.mon (clipId c)) : y.mon.alarms[clipId c] = x.mon.alarms[clipId c] := by
  obtain ⟨meters, hmon⟩ := frame_mon (ins := ins) hs
  have hframe : (x.frame ins).mon.alarms[clipId c] = x.mon.alarms[clipId c] := by rw [hmon]
  by_cases hclip : c ∈ x.frameClips ins
  · obtain ⟨z, hz, hy⟩ := h.2 hclip
    have hw : z.mon.watches (clipId c) = false := by
      have hx : x.mon.watches (clipId c) = false := by
        rw [← Bool.not_eq_true, watches_iff]
        exact hc.resolve_left (not_not.2 hclip)
      rw [hz.watches, hmon, ← hx]
      rfl
    calc y.mon.alarms[clipId c]
      _ = (z.mon.offer (clipId c)).alarms[clipId c] := hy.alarm
      _ = z.mon.alarms[clipId c] := by rw [offer_unwatched hw]
      _ = x.mon.alarms[clipId c] := hz.alarm.trans hframe
  · exact (h.1 hclip).alarm.trans hframe

/-- The CLIP alarm of a channel that clipped, where it is watched, takes one occurrence; an entry into RAISED from CLEAR or
QUALIFYING makes it pending (R113, R116, R118). -/
theorem Plays.alarm_occurs (h : Plays ins c x y) (hs : x.ctx.state ≠ .dark) (hclip : c ∈ x.frameClips ins)
    (hw : Watched x.mon (clipId c)) :
    let a := x.mon.alarms[clipId c].resumed
    AtOccurrence (x.mon.record (clipId c)) a y.mon.alarms[clipId c] ∧
      (y.mon.alarms[clipId c].state = .raised → a.state = .clear ∨ a.state = .qualifying →
        y.mon.pending[clipId c].isSome = true) := by
  obtain ⟨meters, hmon⟩ := frame_mon (ins := ins) hs
  obtain ⟨z, hz, hy⟩ := h.2 hclip
  have hwatch : z.mon.watches (clipId c) = true := by
    rw [hz.watches, hmon, ← (watches_iff _ _).2 hw]
    rfl
  have hrecord : z.mon.record (clipId c) = x.mon.record (clipId c) := by
    rw [hz.record, hmon]
    rfl
  have hbefore : z.mon.alarms[clipId c] = x.mon.alarms[clipId c] := hz.alarm.trans (by rw [hmon])
  have halarm : y.mon.alarms[clipId c] = (x.mon.alarms[clipId c].resumed.occurrence (x.mon.record (clipId c))).1 := by
    rw [hy.alarm, ← hbefore, ← hrecord, ← offer_alarm hwatch]
    rfl
  intro a
  rw [halarm]
  refine ⟨occurrence_atOccurrence _ _, fun hraised ha => hy.pending ?_⟩
  have hpending := offer_pending hwatch
  rw [hbefore, hrecord, if_pos (occurrence_entersRaised ha hraised)] at hpending
  exact congrArg Option.isSome hpending

end

/-! ### The statement -/

/-- A crossfade that has not run its 64th frame is not due to end (R99). -/
theorem crossfadeOver_false {e : Engine} (h : ∀ y, e.crossfade = some y → y.frame ≤ 63) : e.crossfadeOver = false := by
  unfold Engine.crossfadeOver
  cases hx : e.crossfade with
  | none => rfl
  | some y => exact decide_eq_false (Nat.not_le.2 (Nat.lt_succ_of_le (h y hx)))

/-- Settles O47: `masterFrame_plays`, with the screen's decode unit, engine and CLIP alarms read off. -/
theorem masterFrameRunsTheSignalPath : Obligations.MasterFrameRunsTheSignalPath := by
  intro s hp hr
  refine ⟨s.masterFrame, live_on hp _, fun n hs hfade => ?_⟩
  have hplays := masterFrame_plays hr (crossfadeOver_false hfade)
  generalize s.masterFrame = t at hplays ⊢
  intro e d m u inputs runs
  have hparts : u.dec = d.follow inputs ∧ u.eng = e.advanceFade.afterFrame (values (d.channelInputs inputs)) := by
    obtain ⟨x, hx, hy⟩ := hplays 0
    have hsx : x.ctx.state ≠ .dark := by rwa [hx.ctx]
    obtain ⟨hdec, heng⟩ := hy.parts
    rw [frame_playing hsx, hx.dec, hx.eng] at heng
    rw [frame_playing hsx, hx.dec] at hdec
    exact ⟨hdec, heng⟩
  obtain ⟨hdec, heng⟩ := hparts
  refine ⟨?_, fun c => ?_, fun hst => ?_, fun st hst => ?_⟩
  · rw [heng]
    exact afterFrame_rest e _
  · intro x path
    have hin : (values (d.channelInputs inputs))[c] = x := by simpa [values] using (channelInputs_eq d inputs c).1
    have hpath (k : Bank) : ((e.bank k)[c].path e.lines[c] e.fader x).value = path k := (bankPath_eq e c x k).1
    refine ⟨fun hmute => ?_, fun hmute hnone => ?_, fun y hmute hsome => ?_, ?_, fun k hk => ?_, fun k hk => ?_, ?_⟩
    · rw [heng, afterFrame_output, hmute, if_pos rfl]
    · rw [heng, afterFrame_output, hmute, hin, preMute_steady c x hnone, hpath]
      rfl
    · rw [heng, afterFrame_output, hmute, hin, preMute_fading c x hsome, hpath, hpath, blend_eq]
      rfl
    · rw [heng, afterFrame_line, hin]
    · rw [heng, afterFrame_runs e _ c hk, hin]
    · rw [heng, afterFrame_rests e _ hk]
    · intro clips id hid
      obtain rfl : id = clipId c := Fin.ext hid
      obtain ⟨z, hz, hy⟩ := hplays c
      have hsz : z.ctx.state ≠ .dark := by rwa [hz.ctx]
      have hclips : c ∈ z.frameClips inputs ↔ clips := by rw [mem_frameClips hsz, hz.dec, hz.eng]
      have hwatched : Watched z.mon (clipId c) ↔ Watched m (clipId c) := by rw [← watches_iff, hz.watches, watches_iff]
      rw [← hclips, ← hwatched, ← hz.alarm, ← hz.record]
      exact ⟨hy.alarm_stays hsz, hy.alarm_occurs hsz⟩
  · exact hdec.trans (follow_unsteered hst inputs)
  · exact hdec.trans (follow_steered hst inputs)

end Sys2Proof.Machine
end

-- Proofs/FormatLoads: FORMAT-LOAD in its four parts (O22, O23)
section
/-! The checks of FORMAT-LOAD and the records it leaves (R64, R67 to R71): the kind of a tag, the node's own staging record, a staged
record made whole, and the stale flags set over all screens. -/

namespace Sys2Proof.Machine

/-! ### Tags -/

theorem tagKind_outside {tag : Nat} (h : tag = 0 ∨ (7 ≤ tag ∧ tag ≤ 15) ∨ 32 ≤ tag) : tagKind tag = .outside := by
  rw [tagKind, if_neg (by omega), if_neg (by omega)]

theorem tagKind_builtIn {tag : Nat} (h1 : 1 ≤ tag) (h6 : tag ≤ 6) : tagKind tag = .builtIn := by
  rw [tagKind, if_neg (by omega), if_pos ⟨h1, h6⟩]

theorem tagKind_loadable {tag : Nat} (h16 : 16 ≤ tag) (h31 : tag ≤ 31) : tagKind tag = .loadable := if_pos ⟨h16, h31⟩

/-- Tag 16 + i names the loadable entry i (R64). -/
theorem loadIndex_add (i : Fin 16) : loadIndex (16 + i.val) = some i := by
  rw [loadIndex, if_pos (Nat.le_add_right 16 _), Nat.add_sub_cancel_left, index?_val]

theorem format?_loadable (s : State) (i : Fin 16) : s.format? (16 + i.val) = s.loaded[i] := by
  rw [State.format?, if_neg (by omega), Nat.add_sub_cancel_left, index?_val]

theorem setLoaded_loadable {tag : Nat} {i : Fin 16} (h : tag = 16 + i.val) (s : State) (x : Option FormatRecord) :
    s.setLoaded tag x = { s with loaded := s.loaded.set i.val x } := by
  subst h
  rw [State.setLoaded, loadIndex_add]

/-! ### BEGIN -/

/-- R67's range checks are that the header is in range. -/
theorem headerOk_iff (x : FormatHeader) : headerOk x = true ↔ HeaderInRange x := by
  cases hs : x.steering <;> simp [headerOk, HeaderInRange, hs, steeringOk, SteeringInRange, and_assoc]

/-- Steering operands in range are kept as they are (R64, R67). -/
theorem steeringOf_inRange {inputs : Nat} (hi : inputs ≤ 16) {y : SteeringOperand} (h : SteeringInRange inputs y) :
    ∃ st, steeringOf y = some st ∧
      ({ first := st.first.val, second := st.second.val, shift := st.shift, slew := st.slew } : SteeringOperand) = y := by
  obtain ⟨-, hfirst, hsecond, -⟩ := h
  have h1 : y.first < 16 := Nat.lt_of_lt_of_le hfirst hi
  have h2 : y.second < 16 := Nat.lt_of_lt_of_le hsecond hi
  exact ⟨{ first := ⟨y.first, h1⟩, second := ⟨y.second, h2⟩, shift := y.shift, slew := y.slew },
    by simp [steeringOf, index?, h1, h2], rfl⟩

/-- The steering fields of a header in range name its steering operands (R64). -/
theorem header_steering {x : FormatHeader} (h : HeaderInRange x) :
    (x.steering.bind steeringOf).map (fun y =>
      ({ first := y.first.val, second := y.second.val, shift := y.shift, slew := y.slew } : SteeringOperand)) = x.steering := by
  obtain ⟨-, hinputs, -, -, -, hsteering⟩ := h
  cases hs : x.steering with
  | none => rfl
  | some y =>
    obtain ⟨st, hst, hy⟩ := steeringOf_inRange hinputs (hsteering y hs)
    rw [Option.bind_some, hst, Option.map_some, hy]

section
variable (h : ReqHead) {x : FormatHeader} (s : State)

theorem begin_outside (ht : x.tag = 0 ∨ (7 ≤ x.tag ∧ x.tag ≤ 15) ∨ 32 ≤ x.tag) :
    answerFormatLoadBegin h x s = .refuse .range := by
  rw [answerFormatLoadBegin, tagKind_outside ht]

theorem begin_outOfRange (hr : ¬HeaderInRange x) : answerFormatLoadBegin h x s = .refuse .range := by
  have hbad : ¬headerOk x = true := mt (headerOk_iff x).1 hr
  unfold answerFormatLoadBegin
  split
  · rfl
  · exact if_neg hbad
  · exact if_neg hbad

theorem begin_builtIn (h1 : 1 ≤ x.tag) (h6 : x.tag ≤ 6) (hr : HeaderInRange x) :
    answerFormatLoadBegin h x s = .refuse .state := by
  rw [answerFormatLoadBegin, tagKind_builtIn h1 h6]
  exact if_pos ((headerOk_iff x).2 hr)

theorem begin_loadable (h16 : 16 ≤ x.tag) (h31 : x.tag ≤ 31) (hr : HeaderInRange x) :
    answerFormatLoadBegin h x s = .done { s with staging := some (stagingOf h.source x) } [] := by
  rw [answerFormatLoadBegin, tagKind_loadable h16 h31]
  exact if_pos ((headerOk_iff x).2 hr)

end

/-! ### ROWS -/

/-- The node's own staging record for a tag (R68, R69). -/
theorem ownStaging_eq_some {s : State} {h : ReqHead} {tag : Nat} {g : Staging} :
    s.ownStaging h tag = some g ↔ s.staging = some g ∧ g.owner = h.source ∧ g.tag = tag := by
  simp [State.ownStaging, Option.filter_eq_some_iff]

theorem ownStaging_eq_none {s : State} {h : ReqHead} {tag : Nat} :
    s.ownStaging h tag = none ↔ ∀ g, s.staging = some g → g.owner ≠ h.source ∨ g.tag ≠ tag := by
  simp only [Option.eq_none_iff_forall_ne_some, ne_eq, ownStaging_eq_some, not_and_or]
  exact forall_congr' fun g => by rw [← imp_iff_not_or]

section
variable {h : ReqHead} {tag row : Nat} {matrix : Matrix} {coefs : List Int} {s : State}

/-- A list of no or too many coefficients is refused (R179). -/
theorem rows_badList (hl : coefs = [] ∨ 17 ≤ coefs.length) : answerFormatLoadRows h tag row matrix coefs s = .refuse .range := by
  refine if_neg fun hlen => ?_
  rcases hl with rfl | hl
  · exact Nat.not_succ_le_zero 0 hlen.1
  · omega

section
variable (hl : 1 ≤ coefs.length ∧ coefs.length ≤ 16)
include hl

theorem rows_notOwn (hn : s.ownStaging h tag = none) : answerFormatLoadRows h tag row matrix coefs s = .refuse .state := by
  rw [answerFormatLoadRows, if_pos hl, hn]

variable {g : Staging} (hg : s.ownStaging h tag = some g)
include hg

theorem rows_noRow (hr : g.rows.length ≤ row ∨ (matrix = .b ∧ g.steering = none)) :
    answerFormatLoadRows h tag row matrix coefs s = .refuse .range := by
  rw [answerFormatLoadRows, if_pos hl, hg]
  refine if_neg fun ⟨hrow, hm⟩ => ?_
  rcases hr with hr | ⟨rfl, hst⟩
  · omega
  · rw [hst] at hm
    simp at hm

/-- The row takes the coefficients listed, and zero beyond them (R68). -/
theorem rows_given {r : StagedRow} (hr : g.rows[row]? = some r) (hm : matrix = .a ∨ g.steering ≠ none) :
    answerFormatLoadRows h tag row matrix coefs s = .done
      { s with staging := some { g with rows := g.rows.set row (r.give matrix (listedRow coefs)) } } [] := by
  obtain ⟨hrow, -⟩ := List.getElem?_eq_some_iff.1 hr
  rw [answerFormatLoadRows, if_pos hl, hg]
  simp only [hrow, Option.isSome_iff_ne_none, hm, and_self, if_true, List.modify_eq_set_getElem?, hr]
  rfl

end
end

/-- Settles O22: one lemma for each answer of BEGIN and ROWS. -/
theorem formatLoadsFillTheStaging : Obligations.FormatLoadsFillTheStaging := by
  refine ⟨fun h x s => ?_, fun h tag row matrix coefs s => ?_⟩
  · refine under_part (answerFormatLoadBegin h x) rfl rfl rfl (.inl rfl) fun _ hx => ?_
    intro refused
    refine ⟨fun ht => ?_, fun hr => ?_, fun h1 h6 hr => ?_, fun h16 h31 hr => ⟨_, header_steering hr, ?_⟩⟩
    · exact hx.trans (congrArg _ (outcome_refuse (begin_outside h s ht)))
    · exact hx.trans (congrArg _ (outcome_refuse (begin_outOfRange h s hr)))
    · exact hx.trans (congrArg _ (outcome_refuse (begin_builtIn h s h1 h6 hr)))
    · exact hx.trans (congrArg _ (outcome_done (begin_loadable h s h16 h31 hr)))
  · refine under_part (answerFormatLoadRows h tag row matrix coefs) rfl rfl rfl (.inl rfl) fun _ hx => ?_
    intro c refused listed
    refine ⟨fun hl => ?_, fun h1 h16 => ⟨fun hn => ?_, fun g hg ho ht => ?_⟩⟩
    · exact hx.trans (congrArg _ (outcome_refuse (rows_badList hl)))
    · exact hx.trans (congrArg _ (outcome_refuse (rows_notOwn ⟨h1, h16⟩ (ownStaging_eq_none.2 hn))))
    · have hown : s.ownStaging h tag = some g := ownStaging_eq_some.2 ⟨hg, ho, ht⟩
      refine ⟨fun hr => ?_, fun r hr => ⟨fun hm => ?_, fun hm hst => ?_⟩⟩
      · exact hx.trans (congrArg _ (outcome_refuse (rows_noRow ⟨h1, h16⟩ hown hr)))
      · subst hm
        exact hx.trans (congrArg _ (outcome_done (rows_given ⟨h1, h16⟩ hown hr (.inl rfl))))
      · subst hm
        exact hx.trans (congrArg _ (outcome_done (rows_given ⟨h1, h16⟩ hown hr (.inr hst))))

/-! ### A staged record made whole -/

/-- Every row of a staging record has the matrices it needs (R69). -/
def Staging.Whole (g : Staging) : Prop := ∀ r ∈ g.rows, r.a.isSome = true ∧ (g.steering.isSome = true → r.b.isSome = true)

theorem allKnown_eq_none {α : Type} {l : List (Option α)} : allKnown l = none ↔ none ∈ l := by
  induction l with
  | nil => simp [allKnown]
  | cons a l ih => cases a <;> simp [allKnown, ih]

/-- A row is left unfinished exactly where it lacks a matrix (R69). -/
theorem finishedRow_eq_none {steered : Bool} {r : StagedRow} :
    r.finished steered = none ↔ ¬(r.a.isSome = true ∧ (steered = true → r.b.isSome = true)) := by
  cases ha : r.a <;> cases steered <;> simp [StagedRow.finished, ha]

/-- A finished row has the staged role and the staged matrices (R69). -/
theorem finishedRow_eq_some {steered : Bool} {r : StagedRow} {w : FormatRow} (h : r.finished steered = some w) :
    w.role = r.role ∧ r.a = some w.a ∧ (steered = true → r.b = some w.b) := by
  unfold StagedRow.finished at h
  cases ha : r.a with
  | none =>
    rw [ha] at h
    cases h
  | some a =>
    simp only [ha] at h
    cases steered with
    | false =>
      cases h
      exact ⟨rfl, rfl, fun hs => Bool.noConfusion hs⟩
    | true =>
      obtain ⟨b, hb, rfl⟩ := Option.map_eq_some_iff.1 h
      exact ⟨rfl, rfl, fun _ => hb⟩

/-- A staged record can be committed exactly where it is whole (R69). -/
theorem finished_eq_none {g : Staging} : g.finished = none ↔ ¬g.Whole := by
  simp only [Staging.finished, Option.map_eq_none_iff, allKnown_eq_none, List.mem_map, finishedRow_eq_none, Staging.Whole,
    not_forall, exists_prop]

/-- The record that a COMMIT enters is the staged one (R69). -/
theorem finished_eq_some {g : Staging} {x : FormatRecord} (h : g.finished = some x) :
    x.inputs = g.inputs ∧ x.steering = g.steering ∧ x.rows.map (·.role) = g.rows.map (·.role) ∧
      ∀ (k : Nat) (r : StagedRow) (w : FormatRow), g.rows[k]? = some r → x.rows[k]? = some w →
        r.a = some w.a ∧ (g.steering.isSome = true → r.b = some w.b) := by
  obtain ⟨rows, hrows, rfl⟩ := Option.map_eq_some_iff.1 h
  have hmap : g.rows.map (StagedRow.finished g.steering.isSome) = rows.map some := allKnown_eq_some.1 hrows
  have hrow (k : Nat) : (g.rows[k]?).map (StagedRow.finished g.steering.isSome) = (rows[k]?).map some := by
    rw [← List.getElem?_map, ← List.getElem?_map, hmap]
  have hfinished {k : Nat} {r : StagedRow} {w : FormatRow} (hr : g.rows[k]? = some r) (hw : rows[k]? = some w) :
      r.finished g.steering.isSome = some w := by simpa [hr, hw] using hrow k
  refine ⟨rfl, rfl, List.ext_getElem? fun k => ?_, fun k r w hr hw => (finishedRow_eq_some (hfinished hr hw)).2⟩
  rw [List.getElem?_map, List.getElem?_map]
  cases hr : g.rows[k]? with
  | none => simpa [hr, eq_comm] using hrow k
  | some r => cases hw : rows[k]? with
    | none => simpa [hr, hw] using hrow k
    | some w => exact congrArg some (finishedRow_eq_some (hfinished hr hw)).1

/-! ### The stale flags -/

/-- One update of each screen of a list is one update of all the screens. -/
theorem forEach_modScreen (f : Screen → Screen) (items : List (Fin 8)) (hd : items.Nodup) (s : State) :
    forEach items (fun n t => t.modScreen n f) s =
      { s with screens := Vector.ofFn fun n => if n ∈ items then f s.screens[n] else s.screens[n] } := by
  induction items generalizing s with
  | nil => simp [forEach]
  | cons a items ih =>
    obtain ⟨ha, hd⟩ := List.nodup_cons.1 hd
    refine (ih hd (s.modScreen a f)).trans ?_
    have hscreen (n : Fin 8) : (if n ∈ items then f (s.modScreen a f).screens[n] else (s.modScreen a f).screens[n]) =
        if n ∈ a :: items then f s.screens[n] else s.screens[n] := by
      by_cases hn : n = a
      · subst hn
        simp [ha]
      · simp [hn, State.modScreen_other s a n f hn]
    simp only [hscreen]
    rfl

/-- The stale flag of every screen working with the tag is set (R69 to R71). -/
theorem markStale_eq (s : State) (tag : Nat) : s.markStale tag = { s with screens := Vector.ofFn fun n =>
    if s.screens[n].dec.tag = tag then { s.screens[n] with dec := { s.screens[n].dec with stale := true } }
    else s.screens[n] } := by
  refine (forEach_modScreen (fun x => { x with dec := if x.dec.tag = tag then { x.dec with stale := true } else x.dec })
    (List.finRange 8) (List.nodup_finRange 8) s).trans ?_
  simp only [List.mem_finRange, if_true]
  congr 2
  funext n
  split <;> rfl

/-! ### COMMIT and CLEAR -/

section
variable {h : ReqHead} {tag : Nat} {s : State}

theorem commit_refused (hn : ∀ g, s.staging = some g → g.owner ≠ h.source ∨ g.tag ≠ tag ∨ ¬g.Whole) :
    answerFormatLoadCommit h tag s = .refuse .state := by
  have hnone : (s.ownStaging h tag).bind Staging.finished = none := by
    cases hg : s.ownStaging h tag with
    | none => rfl
    | some g =>
      obtain ⟨hs, ho, ht⟩ := ownStaging_eq_some.1 hg
      exact finished_eq_none.2 (((hn g hs).resolve_left (not_not.2 ho)).resolve_left (not_not.2 ht))
  rw [answerFormatLoadCommit, hnone]

theorem commit_done {g : Staging} {x : FormatRecord} (hg : s.ownStaging h tag = some g) (hx : g.finished = some x) :
    answerFormatLoadCommit h tag s = .done (({ s with staging := none }.setLoaded tag (some x)).markStale tag) [] := by
  rw [answerFormatLoadCommit, hg, Option.bind_some, hx]

theorem clear_loadable {i : Fin 16} (h : tag = 16 + i.val) : answerFormatLoadClear tag s =
    if s.loaded[i].isSome then .done ((s.setLoaded tag none).markStale tag) [] else .done s [] := by
  have hloaded : s.format? tag = s.loaded[i] := h ▸ format?_loadable s i
  rw [answerFormatLoadClear, tagKind_loadable (by omega) (by omega), State.validTag, hloaded]

end

/-- Settles O23: one lemma for each answer of COMMIT and CLEAR, with the record and the stale flags written out. -/
theorem formatCommitAndClearReplaceTheEntry : Obligations.FormatCommitAndClearReplaceTheEntry := by
  intro h tag s stale
  have hstale (t : State) (i : Fin 16) (htag : tag = 16 + i.val) (x : Option FormatRecord) :
      (t.setLoaded tag x).markStale tag = stale { t with loaded := t.loaded.set i.val x } :=
    (markStale_eq _ tag).trans (congrArg stale (setLoaded_loadable htag t x))
  refine ⟨under_part (answerFormatLoadCommit h tag) rfl rfl rfl (.inl rfl) fun _ hx => ?_,
    under_part (answerFormatLoadClear tag) rfl rfl rfl (.inl rfl) fun _ hx => ?_⟩
  · refine ⟨fun hn => hx.trans (congrArg _ (outcome_refuse (commit_refused hn))), fun g i htag hg ho ht hwhole => ?_⟩
    obtain ⟨x, hfinished⟩ := Option.ne_none_iff_exists'.1 fun hnone => finished_eq_none.1 hnone hwhole
    obtain ⟨hinputs, hsteering, hroles, hrows⟩ := finished_eq_some hfinished
    refine ⟨x, hinputs, hsteering, hroles, hrows, ?_⟩
    rw [hx, outcome_done (commit_done (ownStaging_eq_some.2 ⟨hg, ho, ht⟩) hfinished), hstale _ i htag]
  · refine ⟨fun hout => ?_, fun h1 h6 => ?_, fun i htag => ⟨fun hnone => ?_, fun hsome => ?_⟩⟩
    · exact hx.trans (congrArg _ (outcome_refuse (by rw [answerFormatLoadClear, tagKind_outside hout])))
    · exact hx.trans (congrArg _ (outcome_refuse (by rw [answerFormatLoadClear, tagKind_builtIn h1 h6])))
    · have hanswer : answerFormatLoadClear tag s = .done s [] := (clear_loadable htag).trans (if_neg (by simp [hnone]))
      rw [hx, outcome_done hanswer]
    · rw [hx, outcome_done ((clear_loadable htag).trans (if_pos hsome)), hstale _ i htag]

end Sys2Proof.Machine
end

-- Proofs/EntryReads: the reading forms that name an entry (O14)
section
/-! A reading request that names a tag, a channel or a cue: it passes the checks before its owning block (R177), which answers a part
of the entry's items or refuses (R82, R106, R154, R181). -/

namespace Sys2Proof.Machine

/-! ### Reading requests -/

section
variable {c : Instr} {h : ReqHead} {k : ReqKind} {s : State} {body : State → Answer}

/-- A reading request of screen number 15, where its kind has that form, is answered as its owning block says (R177, R178). -/
theorem read_part (hx : exec c s = live s fun s => s.request h k body) (hk : k.takesPart = true) (hc : k.cls = .read)
    (ht : s.takes h) (h15 : h.screen = 15) : exec c s = .next (outcome s h k body) := by
  have hb : s.refusedBefore h k = none := by simp [State.refusedBefore, State.lockedOut, h15, hk, hc]
  rw [hx, live_on ht.1, request_taken (takes_can ht) hb]
  rfl

/-- A reading request of a screen, where its kind has that form, is answered as its owning block says (R177, R178). -/
theorem read_screen (hx : exec c s = live s fun s => s.request h k body) (hk : k.takesScreen = true) (hc : k.cls = .read)
    (ht : s.takes h) {n : Fin 8} (hn : h.screen.toNat = n.val) : exec c s = .next (outcome s h k body) := by
  have h8 : ¬8 ≤ h.screen.toNat := by omega
  have h15 : h.screen ≠ 15 := fun he => h8 (by rw [he]; decide)
  have hb : s.refusedBefore h k = none := by
    simp only [State.refusedBefore, State.lockedOut, h8, h15, hk, hc, false_and, and_false, if_false, Bool.true_eq_false,
      Bool.false_eq_true]
  rw [hx, live_on ht.1, request_taken (takes_can ht) hb]
  rfl

/-- What is answered by the parts of a reply reads those parts (R181). -/
theorem readsPart_of_answer {part : Nat} {items : List Word} (hx : exec c s = .next (outcome s h k body))
    (hb : body s = readAnswer s items part) : ReadsPart c h k part s items := by
  refine ⟨fun hp => ?_, fun hp => ?_⟩
  · exact hx.trans (congrArg _ (outcome_done (hb.trans (if_pos hp))))
  · exact hx.trans (congrArg _ (outcome_refuse (hb.trans (if_neg (Nat.not_lt.2 hp)))))

end

/-! ### FORMAT-READ of a tag -/

section
variable {s : State} {tag : Nat}

/-- A tag outside 1 to 31 is refused (R82). -/
theorem tagItems_outside (ht : tag = 0 ∨ 31 < tag) (row : Option (Nat × Matrix)) : s.tagItems tag row = .error .range :=
  if_neg (by omega)

section
variable (h1 : 1 ≤ tag) (h31 : tag ≤ 31)
include h1 h31

/-- A tag that is not valid answers that, and has no row (R82). -/
theorem tagItems_invalid (hf : s.format? tag = none) :
    s.tagItems tag none = .ok (1 :: s.stagingWords) ∧ ∀ row, row.isSome = true → s.tagItems tag row = .error .state := by
  refine ⟨?_, fun row hrow => ?_⟩
  · simp only [State.tagItems, h1, h31, and_self, if_true, hf]
    rfl
  · obtain ⟨r, rfl⟩ := Option.isSome_iff_exists.1 hrow
    simp only [State.tagItems, h1, h31, and_self, if_true, hf]

variable {x : FormatRecord} (hf : s.format? tag = some x)
include hf

/-- A valid tag answers its header (R82). -/
theorem tagItems_header : s.tagItems tag none = .ok (0 :: x.headerWords ++ s.stagingWords) := by
  simp only [State.tagItems, h1, h31, and_self, if_true, hf]
  rfl

/-- A row of a valid tag answers its coefficients (R82). -/
theorem tagItems_row {k : Nat} {w : FormatRow} {m : Matrix} (hw : x.rows[k]? = some w) (hm : m = .a ∨ x.steering.isSome = true) :
    s.tagItems tag (some (k, m)) = .ok ((w.matrix m).toList.map coefWord ++ s.stagingWords) := by
  simp only [State.tagItems, h1, h31, and_self, if_true, hf, hw, hm]

/-- A row that is not there, or a matrix that is not used, is refused (R82). -/
theorem tagItems_noRow {k : Nat} {m : Matrix} (h : x.rows.length ≤ k ∨ (m = .b ∧ x.steering = none)) :
    s.tagItems tag (some (k, m)) = .error .range := by
  simp only [State.tagItems, h1, h31, and_self, if_true, hf]
  cases hw : x.rows[k]? with
  | none => rfl
  | some w =>
    have hk : ¬x.rows.length ≤ k := Nat.not_le.2 (List.getElem?_eq_some_iff.1 hw).1
    obtain ⟨rfl, hst⟩ := h.resolve_left hk
    simp [hst]

end
end

section
variable {h : ReqHead} {tag part : Nat} {row : Option (Nat × Matrix)} {s : State}

/-- FORMAT-READ of a tag is answered by the tag's items, or refused (R82). -/
theorem answerFormatRead_tag (h15 : h.screen = 15) : answerFormatRead h (.tag tag row) part s =
    readOrRefuse s part (s.tagItems tag row) := by
  have hindex : index? 8 h.screen.toNat = none := by simp [index?, h15]
  simp only [answerFormatRead, hindex]

variable (ht : s.takes h) (h15 : h.screen = 15)
include ht h15

theorem formatRead_refused {code : RefusalCode} (hi : s.tagItems tag row = .error code) :
    exec (.formatRead h (.tag tag row) part) s = .next (s.refusedWith h .formatRead code) := by
  refine (read_part (body := answerFormatRead h (.tag tag row) part) rfl rfl rfl ht h15).trans (congrArg _ (outcome_refuse ?_))
  rw [answerFormatRead_tag h15, hi]
  rfl

theorem formatRead_reads {items : List Word} (hi : s.tagItems tag row = .ok items) :
    ReadsPart (.formatRead h (.tag tag row) part) h .formatRead part s items := by
  refine readsPart_of_answer (read_part (body := answerFormatRead h (.tag tag row) part) rfl rfl rfl ht h15) ?_
  rw [answerFormatRead_tag h15, hi]
  rfl

end

theorem numberOf_role (role : Role) : numberOf allRoles role = roleWord role := by
  cases role <;> rfl

/-- The header items of a format record (R82). -/
theorem headerWords_eq (x : FormatRecord) :
    x.headerWords = [wordOf x.inputs, onOffWord x.steering.isSome, wordOf x.rows.length] ++
      x.rows.map (fun w => roleWord w.role) ++ (match x.steering with
        | some y => [wordOf y.first.val, wordOf y.second.val, wordOf y.shift, wordOf y.slew]
        | none => []) := by
  simp only [FormatRecord.headerWords, numberOf_role]
  cases x.steering <;> rfl

/-! ### EQ-READ of a channel -/

/-- A channel above 15 has no items (R106). -/
theorem chainItems_outside (s : State) (n : Fin 8) (k : Bank) {channel : Nat} (hc : 16 ≤ channel) (first : Nat) :
    s.chainItems n k channel first = .error .range := by
  have hindex : index? 16 channel = none := dif_neg (Nat.not_lt.2 hc)
  rw [State.chainItems, hindex]

/-- A channel answers its record from the first section asked for, which must be one of its sections unless it has none (R106). -/
theorem chainItems_channel (s : State) (n : Fin 8) (k : Bank) (c : Fin 16) (first : Nat) :
    let x := (s.screens[n].eng.bank k)[c]
    s.chainItems n k c.val first = if first < x.sections.length ∨ x.sections.length = 0 then
        .ok ([wordOf x.sections.length, wordOf x.delay, wordOf x.trim] ++
          listWords (fun y => coefsWords y.coefs) ((x.sections.drop first).take 6) ++
          [wordOf (s.screens[n].eng.delayAllocation c)] ++ longWords s.blockCounter)
      else .error .range := by
  rw [State.chainItems, index?_val]
  rfl

section
variable {h : ReqHead} {k : Bank} {channel first part : Nat} {s : State} {n : Fin 8} (ht : s.takes h)
  (hn : h.screen.toNat = n.val)

/-- The screen that a request's number names. -/
theorem index?_screen {h : ReqHead} {n : Fin 8} (hn : h.screen.toNat = n.val) : index? 8 h.screen.toNat = some n :=
  hn ▸ index?_val n

include ht hn

theorem eqRead_refused {code : RefusalCode} (hi : s.chainItems n k channel first = .error code) :
    exec (.eqRead h (.channel k channel first) part) s = .next (s.refusedWith h .eqRead code) := by
  refine (read_screen (body := answerEqRead h (.channel k channel first) part) rfl rfl rfl ht hn).trans
    (congrArg _ (outcome_refuse ?_))
  simp only [answerEqRead, index?_screen hn, hi, readOrRefuse]

theorem eqRead_reads {items : List Word} (hi : s.chainItems n k channel first = .ok items) :
    ReadsPart (.eqRead h (.channel k channel first) part) h .eqRead part s items := by
  refine readsPart_of_answer (read_screen (body := answerEqRead h (.channel k channel first) part) rfl rfl rfl ht hn) ?_
  simp only [answerEqRead, index?_screen hn, hi, readOrRefuse]

/-! ### CUE-READ of a cue -/

theorem cueRead_zero : exec (.cueRead h (.cue 0) part) s = .next (s.refusedWith h .cueRead .range) := by
  refine (read_screen (body := answerCueRead h (.cue 0) part) rfl rfl rfl ht hn).trans (congrArg _ (outcome_refuse ?_))
  simp only [answerCueRead, index?_screen hn, if_true]

variable {id : Nat} (h0 : id ≠ 0)
include h0

theorem cueRead_absent (hf : findCue id s.screens[n].cues = none) :
    exec (.cueRead h (.cue id) part) s = .next (s.refusedWith h .cueRead .state) := by
  refine (read_screen (body := answerCueRead h (.cue id) part) rfl rfl rfl ht hn).trans (congrArg _ (outcome_refuse ?_))
  simp only [answerCueRead, index?_screen hn, h0, if_false, hf]

theorem cueRead_reads {x : Cue} (hf : findCue id s.screens[n].cues = some x) :
    ReadsPart (.cueRead h (.cue id) part) h .cueRead part s (cueWords x ++ longWords s.blockCounter) := by
  refine readsPart_of_answer (read_screen (body := answerCueRead h (.cue id) part) rfl rfl rfl ht hn) ?_
  simp only [answerCueRead, index?_screen hn, h0, if_false, hf]
  rfl

end

theorem findCue_eq_none {id : Nat} {l : List Cue} : findCue id l = none ↔ ∀ c ∈ l, c.id ≠ id := by
  simp [findCue]

/-- In a list whose ids differ, a cue is found by its id (R134). -/
theorem findCue_mem {l : List Cue} (hl : (l.map (·.id)).Nodup) {c : Cue} (hc : c ∈ l) : findCue c.id l = some c := by
  cases hf : findCue c.id l with
  | none => exact absurd rfl (findCue_eq_none.1 hf c hc)
  | some d =>
    have hid : d.id = c.id := by simpa using List.find?_some hf
    rw [List.inj_on_of_nodup_map hl (List.mem_of_find?_eq_some hf) hc hid]

/-! ### The statement -/

/-- Settles O14: one lemma for each form's items and refusals. -/
theorem readingFormsThatNameAnEntry : Obligations.ReadingFormsThatNameAnEntry := by
  intro h part s ht
  refine ⟨fun h15 tag row => ⟨fun hout => ?_, fun h1 h31 hf hrow => ?_, fun h1 h31 hf hrow => ?_, fun x h1 h31 hf =>
      ⟨fun hrow => ?_, fun k w hw => ⟨fun hrow => ?_, fun hrow hst => ?_⟩⟩⟩,
    fun h15 tag x k matrix h1 h31 hf hbad => ?_, headerWords_eq, ?_, fun n hn => ⟨fun k channel first hc => ?_,
      fun k c first => ⟨fun h1 hle => ?_, fun hfirst => ?_⟩, cueRead_zero ht hn, fun id h0 hc => ?_, fun c hc h0 hl => ?_⟩⟩
  · exact formatRead_refused ht h15 (tagItems_outside hout row)
  · exact formatRead_refused ht h15 ((tagItems_invalid h1 h31 hf).2 row hrow)
  · subst hrow
    exact formatRead_reads ht h15 (tagItems_invalid h1 h31 hf).1
  · subst hrow
    exact formatRead_reads ht h15 (tagItems_header h1 h31 hf)
  · subst hrow
    exact formatRead_reads ht h15 (tagItems_row h1 h31 hf hw (.inl rfl))
  · subst hrow
    exact formatRead_reads ht h15 (tagItems_row h1 h31 hf hw (.inr hst))
  · exact formatRead_refused ht h15 (tagItems_noRow h1 h31 hf hbad)
  · rw [State.stagingWords]
    cases s.staging <;> rfl
  · exact eqRead_refused ht hn (chainItems_outside s n k hc first)
  · exact eqRead_refused ht hn ((chainItems_channel s n k c first).trans (if_neg (by omega)))
  · rw [← List.length_eq_zero_iff] at hfirst
    exact eqRead_reads ht hn ((chainItems_channel s n k c first).trans (if_pos hfirst))
  · exact cueRead_absent ht hn h0 (findCue_eq_none.2 hc)
  · exact cueRead_reads ht hn h0 (findCue_mem hl.2 hc)

end Sys2Proof.Machine
end

-- Proofs/FilterEngine: the requests on the filter engine (O24, O25)
section
/-! The requests on the filter engine (R86, R87, R92, R94, R97, R101 to R105): what a load leaves of a record and of its channel's
line, when it is refused, and what EQ-SELECT, MUTE and FADE leave, in the terms that cue actions share. -/

namespace Sys2Proof.Machine

/-! ### Records -/

/-- A record after a HEAD, section by section: the coefficients that stand below the count, pass-through beyond them, and every
section at rest (R102). -/
theorem Chain.head_eq (count delay trim : Nat) (x : Chain) : x.head count delay trim =
    { sections := (List.range count).map fun i => restSection ((x.sections[i]?.map (·.coefs)).getD passThrough), delay, trim } := by
  have hsections : (x.sections.take count).map Section.rest ++
      List.replicate (count - x.sections.length) (restSection passThrough) =
      (List.range count).map fun i => restSection ((x.sections[i]?.map (·.coefs)).getD passThrough) := by
    refine List.ext_getElem (by simp; omega) fun i h1 h2 => ?_
    by_cases hi : i < x.sections.length
    · have hc : i < count := by simpa using h2
      simp [List.getElem_append_left, hi, hc, Section.rest, restSection]
    · rw [List.getElem_append_right (by simp; omega)]
      simp [hi]
  rw [Chain.head, hsections]

/-- A record after a SECTIONS within its count, section by section: the carried coefficients from the first index, and every section
at rest (R103). -/
theorem Chain.writeSections_eq {first : Nat} {new : List Coefs} {x : Chain} (h : first + new.length ≤ x.sections.length) :
    x.writeSections first new =
      { x with sections := x.sections.mapIdx fun i y =>
          restSection (if first ≤ i then (new[i - first]?).getD y.coefs else y.coefs) } := by
  have hsections : (x.sections.take first).map Section.rest ++ new.map restSection ++
      (x.sections.drop (first + new.length)).map Section.rest =
      x.sections.mapIdx fun i y => restSection (if first ≤ i then (new[i - first]?).getD y.coefs else y.coefs) := by
    have hfirst : min first x.sections.length = first := by omega
    refine List.ext_getElem (by simp; omega) fun i h1 h2 => ?_
    simp only [List.getElem_append, List.length_append, List.length_map, List.length_take, hfirst, List.getElem_map,
      List.getElem_take, List.getElem_drop, List.getElem_mapIdx]
    rcases Nat.lt_or_ge i first with hkept | hle
    · rw [dif_pos (by omega), dif_pos hkept, if_neg (by omega)]
      rfl
    · rcases Nat.lt_or_ge i (first + new.length) with hcarried | hbeyond
      · rw [dif_pos hcarried, dif_neg (by omega), if_pos hle, List.getElem?_eq_getElem (by omega), Option.getD_some]
      · rw [dif_neg (by omega), if_pos hle, List.getElem?_eq_none (by omega)]
        simp only [Nat.add_sub_cancel' hbeyond]
        rfl
  rw [Chain.writeSections, hsections]

/-- The delay allocation of a channel is the larger delay of a bank and the other (R87). -/
theorem delayAllocation_eq (e : Engine) (k : Bank) (c : Fin 16) :
    e.delayAllocation c = max (e.bank k)[c].delay (e.bank (otherBank k))[c].delay := by
  cases k with
  | a => rfl
  | b => exact Nat.max_comm _ _

theorem setBank_bank (e : Engine) (k : Bank) (v : Vector Chain 16) : (e.setBank k v).bank k = v := by cases k <;> rfl

theorem setBank_otherBank (e : Engine) (k : Bank) (v : Vector Chain 16) :
    (e.setBank k v).bank (otherBank k) = e.bank (otherBank k) := by cases k <;> rfl

theorem setBank_lines (e : Engine) (k : Bank) (v : Vector Chain 16) : (e.setBank k v).lines = e.lines := by cases k <;> rfl

/-- A HEAD writes the record and cuts the channel's line to the larger of the new delay and the other bank's (R89, R102). -/
theorem loadHead_eq (e : Engine) (k : Bank) (c : Fin 16) (count delay trim : Nat) :
    e.loadHead k c count delay trim =
      { e.setBank k ((e.bank k).set c.val ((e.bank k)[c].head count delay trim)) with
        lines := e.lines.set c.val (e.lines[c].take (max delay (e.bank (otherBank k))[c].delay)) } := by
  rw [Engine.loadHead, Engine.reformLine, delayAllocation_eq _ k, Engine.modChain, setBank_bank, setBank_otherBank, setBank_lines]
  simp [Chain.head]

/-! ### Loading -/

/-- A number that is found as an index is below the bound. -/
theorem index?_lt {n k : Nat} {i : Fin n} (h : index? n k = some i) : k < n := by
  by_contra hge
  rw [index?, dif_neg hge] at h
  cases h

/-- The model's check of R101 is that the screen bars the load. -/
theorem loadBarred_iff (x : Screen) (k : Bank) : x.loadBarred k = true ↔ LoadBarred x k := by
  simp [Screen.loadBarred, LoadBarred, or_assoc, Option.isSome_iff_ne_none]

section
variable {h : ReqHead} {k : Bank} {s : State}

section
variable {channel count delay trim : Nat}

theorem eqLoadHead_outOfRange (hbad : 16 ≤ channel ∨ 13 ≤ count ∨ 4801 ≤ delay) {n : Fin 8} (hn : h.screen.toNat = n.val) :
    answerEqLoadHead h k channel count delay trim s = .refuse .range := by
  rw [answerEqLoadHead, onScreen_at hn]
  split
  · rfl
  · next c hc =>
    have hchannel := index?_lt hc
    refine if_neg fun ⟨hcount, hdelay⟩ => ?_
    simp only [sectionMax, delayMax] at hcount hdelay
    omega

/-- A HEAD in range is refused by a barred bank, and then by the budgets (R101, R102). -/
theorem eqLoadHead_inRange (hcount : count ≤ 12) (hdelay : delay ≤ 4800) (c : Fin 16) {n : Fin 8} (hn : h.screen.toNat = n.val) :
    answerEqLoadHead h k c.val count delay trim s =
      if s.screens[n].loadBarred k then .refuse .state
      else if (s.modEng n (Engine.loadHead k c count delay trim)).withinBudget then
        .done (s.modEng n (Engine.loadHead k c count delay trim)) []
      else .refuse .budget := by
  rw [answerEqLoadHead, onScreen_at hn, index?_val]
  exact if_pos ⟨hcount, hdelay⟩

end

section
variable {channel first : Nat} {new : List Coefs}

theorem eqLoadSections_badForm (hbad : 16 ≤ channel ∨ new = [] ∨ 7 ≤ new.length) {n : Fin 8} (hn : h.screen.toNat = n.val) :
    answerEqLoadSections h k channel first new s = .refuse .range := by
  rw [answerEqLoadSections, onScreen_at hn]
  split
  · rfl
  · next c hc =>
    have hchannel := index?_lt hc
    refine if_neg fun ⟨hone, hsix, _⟩ => ?_
    rcases hbad with hbad | rfl | hbad
    · omega
    · exact Nat.not_succ_le_zero 0 hone
    · omega

/-- A SECTIONS of one to six sections is refused beyond the record's count, and then by a barred bank (R101, R103). -/
theorem eqLoadSections_goodForm (hone : 1 ≤ new.length) (hsix : new.length ≤ 6) (c : Fin 16) {n : Fin 8}
    (hn : h.screen.toNat = n.val) :
    answerEqLoadSections h k c.val first new s =
      if first + new.length ≤ (s.screens[n].eng.bank k)[c].sections.length then
        if s.screens[n].loadBarred k then .refuse .state
        else .done (s.modEng n fun e => e.modChain k c (Chain.writeSections first new)) []
      else .refuse .range := by
  rw [answerEqLoadSections, onScreen_at hn, index?_val]
  simp only [hone, hsix, true_and]

end
end

/-- Settles O24: the budgets as they are defined, and one equation for each load's record and one for its refusals. -/
theorem eqLoadsWriteTheRecord : Obligations.EqLoadsWriteTheRecord := by
  refine ⟨fun s => ⟨fun e => ⟨rfl, fun c => rfl⟩, rfl, rfl⟩, fun h k channel count delay trim s => ?_,
    fun h k channel first new s => ?_⟩
  · refine under_screen (answerEqLoadHead h k channel count delay trim) rfl rfl rfl rfl fun n hn hx => ?_
    intro x refused e
    refine ⟨fun hbad => hx.trans (congrArg _ (outcome_refuse (eqLoadHead_outOfRange hbad hn))), fun c hc hcount hdelay => ?_⟩
    subst hc
    intro old new allocation t
    have hnew : (e.bank k)[c].head count delay trim = new := by
      rw [Chain.head_eq]
      simp only [new, old]
      congr 2
      funext i
      cases (e.bank k)[c].sections[i]? <;> rfl
    have ht : s.modEng n (Engine.loadHead k c count delay trim) = t :=
      modScreen_congr (by rw [loadHead_eq, hnew])
    have hanswer := eqLoadHead_inRange (h := h) (k := k) (s := s) (trim := trim) hcount hdelay c hn
    rw [ht] at hanswer
    refine ⟨fun hb => ?_, fun hb hover => ?_, fun hb hsections hpool => ?_⟩
    · exact hx.trans (congrArg _ (outcome_refuse (hanswer.trans (if_pos ((loadBarred_iff _ _).2 hb)))))
    · have hno : ¬t.withinBudget = true := fun hw => by
        obtain ⟨h1, h2⟩ := (withinBudget_iff t).1 hw
        exact hover.elim (Nat.not_lt.2 h1) (Nat.not_lt.2 h2)
      rw [if_neg (mt (loadBarred_iff _ _).1 hb), if_neg hno] at hanswer
      exact hx.trans (congrArg _ (outcome_refuse hanswer))
    · rw [if_neg (mt (loadBarred_iff _ _).1 hb), if_pos ((withinBudget_iff t).2 ⟨hsections, hpool⟩)] at hanswer
      exact hx.trans (congrArg _ (outcome_done hanswer))
  · refine under_screen (answerEqLoadSections h k channel first new) rfl rfl rfl rfl fun n hn hx => ?_
    intro x refused
    refine ⟨fun hbad => hx.trans (congrArg _ (outcome_refuse (eqLoadSections_badForm hbad hn))), fun c hc hone hsix => ?_⟩
    subst hc
    intro old
    have hanswer := eqLoadSections_goodForm (h := h) (k := k) (s := s) (first := first) hone hsix c hn
    refine ⟨fun hbeyond => ?_, fun hfits hb => ?_, fun hfits hb => ?_⟩
    · exact hx.trans (congrArg _ (outcome_refuse (hanswer.trans (if_neg (Nat.not_le.2 hbeyond)))))
    · rw [if_pos hfits, if_pos ((loadBarred_iff _ _).2 hb)] at hanswer
      exact hx.trans (congrArg _ (outcome_refuse hanswer))
    · rw [if_pos hfits, if_neg (mt (loadBarred_iff _ _).1 hb)] at hanswer
      refine hx.trans (congrArg _ ((outcome_done hanswer).trans (congrArg (State.answered · h .eqLoadSections []) ?_)))
      refine modScreen_congr ?_
      simp only [Engine.modChain, Chain.writeSections_eq hfits, restSection, old]

/-! ### EQ-SELECT, MUTE and FADE -/

/-- A switch request leaves the bank named as the pending switch, or cancels it (R97). -/
theorem select_effect (s : State) (n : Fin 8) (k : Bank) : SelectEffect n k s (s.modEng n (Engine.select k)) := by
  have hselect (e : Engine) : e.select k = { e with pendingSwitch := if k = selectedBank e then none else some k } := by
    by_cases hk : k = selectedBank e
    · rw [if_pos hk]
      exact if_pos hk
    · rw [if_neg hk]
      exact if_neg hk
  exact congrArg (State.modEng s n) (funext hselect)

/-- A mute suppresses SILENT, and every suppressed alarm is returned to CLEAR (R120, R121). -/
theorem muteHanded_clearsAlarms {s : State} {n : Fin 8} {m : Monitor} (hm : s.screens[n].mon = m) :
    ClearsAlarms n (SuppressedBy { m with handedMute := true }) { m with handedMute := true } s (s.muteHanded n) :=
  alarmEvent_clearsAlarms (congrArg (fun m : Monitor => { m with handedMute := true }.clearSuppressed) hm) (suppressed_iff _)

theorem takeMute_effect (s : State) (n : Fin 8) (on : Bool) : MuteEffect n on s (s.takeMute n on) := by
  refine ⟨fun hoff => ?_, fun hon => ?_⟩
  · subst hoff
    rfl
  · subst hon
    exact muteHanded_clearsAlarms (modScreen_mon rfl)

/-! A FADE at the engine: at once, where the level stands already, and over a duration (R94). -/

section
variable {t d : Nat} {e : Engine}

theorem takeFade_atOnce (hd : min d 60000 = 0) : e.takeFade t d = { e with fader := min t 16384, fade := none } := if_pos hd

theorem takeFade_atLevel (hd : min d 60000 ≠ 0) (ht : min t 16384 = e.fader) : e.takeFade t d = { e with fade := none } :=
  (if_neg hd).trans (if_pos ht)

theorem takeFade_starts (hd : min d 60000 ≠ 0) (ht : min t 16384 ≠ e.fader) : e.takeFade t d =
    { e with fade := some { target := min t 16384
                            step := (min t 16384 - e.fader + (e.fader - min t 16384) + min d 60000 - 1) / min d 60000 } } :=
  (if_neg hd).trans (if_neg ht)

end

theorem takeFade_effect (s : State) (n : Fin 8) (t d : Nat) : FadeEffect n t d s (s.takeFade n t d) := by
  have hlevel (h : ¬(min d 60000 = 0 ∧ min t 16384 = 0)) : s.takeFade n t d = s.modEng n (Engine.takeFade t d) := if_neg h
  refine ⟨fun hd ht => ?_, fun hd ht => ?_, fun hd ht => ?_, fun hd ht => ?_⟩
  · rw [hlevel (by omega)]
    exact modScreen_congr (by rw [takeFade_atOnce hd])
  · have hzero : s.takeFade n t d = (s.modEng n (Engine.takeFade t d)).faderZeroHanded n := if_pos ⟨hd, ht⟩
    have hengine : s.modEng n (Engine.takeFade t d) = s.modEng n fun e => { e with fader := 0, fade := none } :=
      modScreen_congr (by rw [takeFade_atOnce hd, ht])
    rw [hzero, hengine]
    exact faderZeroHanded_clearsAlarms (modScreen_mon rfl)
  · rw [hlevel (by omega)]
    exact modScreen_congr (by rw [takeFade_atLevel (by omega) ht])
  · rw [hlevel (by omega)]
    exact modScreen_congr (by rw [takeFade_starts (by omega) ht])

/-- Settles O25: one lemma for the effect of each request. -/
theorem eqSelectMuteAndFadeActAtOnce : Obligations.EqSelectMuteAndFadeActAtOnce := by
  refine ⟨fun h s => ⟨fun k => ?_, fun on => ?_⟩, fun h target duration s => ?_⟩
  · exact under_screen (answerEqSelect h k) rfl rfl rfl rfl fun n hn hx =>
      ⟨_, select_effect s n k, hx.trans (congrArg _ (outcome_done (onScreen_at hn _)))⟩
  · exact under_screen (answerMute h on) rfl rfl rfl rfl fun n hn hx =>
      ⟨_, takeMute_effect s n on, hx.trans (congrArg _ (outcome_done (onScreen_at hn _)))⟩
  · exact under_screen (answerFade h target duration) rfl rfl rfl rfl fun n hn hx =>
      ⟨_, takeFade_effect s n target duration, hx.trans (congrArg _ (outcome_done (onScreen_at hn _)))⟩

end Sys2Proof.Machine
end

-- Proofs/AlarmsNoticesAndCues: alarm units, contact lines, notice stacks and cue lists through every step (O59)
section
/-! Every command is a run of single changes with at most one response placed at its end (`exec_run`), so a condition holds in every
run where each single change and the placing of a response keep it (`step_keeps`). What the changes do is said part by part: an
alarm unit with its contact lines, a notice stack, and a cue list with its pool records. -/

namespace Sys2Proof.Machine

/-! ### A condition that every single change keeps -/

section
variable {P : State → Prop}

theorem path_keeps (hchange : ∀ s t, Change s t → P s → P t) {s t : State} (h : Path s t) (hs : P s) : P t := by
  induction h with
  | refl => exact hs
  | tail _ hlast ih => exact hchange _ _ hlast ih

/-- A step keeps what the single changes, the placing of a response and the taking of a command from the queue keep. -/
theorem step_keeps (hchange : ∀ s t, Change s t → P s → P t) (hplace : ∀ s h k payload r, P s → P (State.place s h k payload r))
    (hqueue : ∀ s rest, P s → P { s with pending := rest }) {s t : State} (h : step s = .next t) (hs : P s) : P t := by
  unfold step at h
  split at h
  · next c rest _ =>
    obtain ⟨u, hpath, rfl | ⟨head, k, payload, r, -, rfl⟩⟩ := exec_run h
    · exact path_keeps hchange hpath (hqueue s rest hs)
    · exact hplace _ _ _ _ _ (path_keeps hchange hpath (hqueue s rest hs))
  · cases h
    exact hs

end

/-! ### What a cue's load and deletion change -/

/-- A load changes one cue list and the free stack (R149). -/
theorem loadCue_shape {s t : State} {n : Fin 8} {k : CueOperand} (h : s.loadCue n k = some t) :
    ∃ free f, t = { s with freeStack := free }.modCues n f := by
  unfold State.loadCue at h
  simp only at h
  split at h
  · cases h; exact ⟨s.freeStack, _, rfl⟩
  · split at h
    · cases h; exact ⟨_, _, rfl⟩
    · cases h

/-- A deletion changes one cue list and the free stack (R151). -/
theorem deleteCue_shape (s : State) (n : Fin 8) (id : Nat) :
    ∃ free f, s.deleteCue n id = { s with freeStack := free }.modCues n f := by
  unfold State.deleteCue
  split
  · exact ⟨_, _, rfl⟩
  · exact ⟨s.freeStack, fun l => l, (modScreen_self rfl).symm⟩

/-! ### The alarm unit and the lines that follow it -/

/-- The summary is formed from the alarms and the table alone (R129). -/
theorem formSummary_congr {m m' : Monitor} (halarms : m'.alarms = m.alarms) (htable : m'.table = m.table) :
    m'.formSummary = m.formSummary := by
  simp only [Monitor.formSummary, Monitor.levelOf, Monitor.record, halarms, htable]

/-- A unit whose summary, alarms and table stay, and whose mark queue stays short. -/
structure MonitorKept (m m' : Monitor) : Prop where
  summary : m'.summary = m.summary
  alarms : m'.alarms = m.alarms
  table : m'.table = m.table
  marks : m.marks.length ≤ 8 → m'.marks.length ≤ 8

theorem MonitorKept.refl (m : Monitor) : MonitorKept m m := ⟨rfl, rfl, rfl, fun h => h⟩

theorem MonitorKept.safe {m m' : Monitor} (h : MonitorKept m m') (hm : m.Safe) : m'.Safe := by
  obtain ⟨hmarks, hsummary⟩ := hm
  exact ⟨h.marks hmarks, by rw [h.summary, formSummary_congr h.alarms h.table, hsummary]⟩

theorem MarksOnly.kept {f : Monitor → Monitor} (h : MarksOnly f) (m : Monitor) : MonitorKept m (f m) := by
  obtain ⟨hsummary, halarms, htable, hmarks⟩ := h m
  exact ⟨hsummary, halarms, htable, hmarks⟩

/-- A unit whose summary has just been formed is as it must be (R129). -/
theorem summarise_safe {m : Monitor} (h : m.marks.length ≤ 8) : m.summarise.Safe := ⟨h, (formSummary_congr rfl rfl).symm⟩

/-- A choice of notice touches the pending set or takes the head mark (R161, R162). -/
theorem noticed_kept (src : NoticeSource) (m : Monitor) : MonitorKept m (m.noticed src) := by
  cases src with
  | alarm id => exact ⟨rfl, rfl, rfl, fun h => h⟩
  | mark cue =>
    refine ⟨rfl, rfl, rfl, fun h => ?_⟩
    calc (dropLevelThree m.marks.tail).length ≤ m.marks.tail.length := dropLevelThree_length _
      _ ≤ m.marks.length := by simp
      _ ≤ 8 := h

/-- A completed notice touches the pending set alone (R164). -/
theorem noticeAgain_kept (e : StackEntry) (m : Monitor) : MonitorKept m (m.noticeAgain e) := by
  unfold Monitor.noticeAgain
  split
  · split <;> exact ⟨rfl, rfl, rfl, fun h => h⟩
  · exact .refl m

/-- A frame of audio moves the meters alone (R108). -/
theorem frame_kept (x : Inputs) (sc : Screen) : MonitorKept sc.mon (sc.frame x).mon := by
  unfold Screen.frame
  split <;> exact ⟨rfl, rfl, rfl, fun h => h⟩

/-- Whether a line is right depends on its owner's summary alone (R158). -/
theorem lineSafe_congr {s t : State} {x : Line}
    (h : ∀ n : Fin 8, x.owner = some n → t.screens[n].mon.summary = s.screens[n].mon.summary) (hx : s.LineSafe x) :
    t.LineSafe x := by
  intro hmode
  obtain ⟨hpulse, hclosed⟩ := hx hmode
  refine ⟨hpulse, hclosed.trans ?_⟩
  cases howner : x.owner with
  | none => rfl
  | some n => simp only [h n howner]

theorem alarmsSafe_of_kept {s t : State} (hs : s.AlarmsSafe) (hmon : ∀ n : Fin 8, MonitorKept s.screens[n].mon t.screens[n].mon)
    (hlines : t.lines = s.lines) : t.AlarmsSafe := by
  obtain ⟨hunits, hfollow⟩ := hs
  refine ⟨fun n => (hmon n).safe (hunits n), fun l => ?_⟩
  rw [hlines]
  exact lineSafe_congr (fun n _ => (hmon n).summary) (hfollow l)

theorem alarmsSafe_of_same {s t : State} (hs : s.AlarmsSafe) (hscreens : t.screens = s.screens) (hlines : t.lines = s.lines) :
    t.AlarmsSafe :=
  alarmsSafe_of_kept hs (fun n => by rw [hscreens]; exact .refl _) hlines

theorem alarmsSafe_modScreen {s : State} (hs : s.AlarmsSafe) (n : Fin 8) {f : Screen → Screen}
    (h : MonitorKept s.screens[n].mon (f s.screens[n]).mon) : (s.modScreen n f).AlarmsSafe := by
  refine alarmsSafe_of_kept hs (fun m => ?_) rfl
  simp only [Fin.getElem_fin, State.modScreen_get]
  split
  · next hm => subst hm; exact h
  · exact .refl _

theorem alarmsSafe_modCues {s : State} (hs : s.AlarmsSafe) (n : Fin 8) (free : List Nat) (f : List Cue → List Cue) :
    ({ s with freeStack := free }.modCues n f).AlarmsSafe :=
  alarmsSafe_modScreen (alarmsSafe_of_same (t := { s with freeStack := free }) hs rfl rfl) n
    (f := fun x => { x with cues := f x.cues }) (.refl _)

theorem alarmEvent_screens (s : State) (n : Fin 8) (f : Monitor → Monitor) :
    (s.alarmEvent n f).screens = (s.modMon n fun m => (f m).summarise).screens := rfl

/-- An alarm event leaves every other screen. -/
theorem alarmEvent_other {s : State} {n m : Fin 8} (h : m ≠ n) (f : Monitor → Monitor) :
    (s.alarmEvent n f).screens[m] = s.screens[m] := by
  rw [Fin.getElem_fin, Fin.getElem_fin, alarmEvent_screens]
  exact State.modScreen_other s n m _ h

/-- An alarm event's new summary is followed by every line (R129, R158). -/
theorem alarmEvent_line (s : State) (n : Fin 8) (f : Monitor → Monitor) (l : Fin 16) :
    (s.alarmEvent n f).lines[l] = s.lines[l].followSummary n (s.alarmEvent n f).screens[n].mon.summary := by
  rw [alarmEvent_mon, alarmEvent_eq]
  simp [Monitor.summarise]

/-- An alarm event forms its unit's summary, and the lines follow it (R129, R158). -/
theorem alarmsSafe_alarmEvent {s : State} (hs : s.AlarmsSafe) (n : Fin 8) {f : Monitor → Monitor}
    (hmarks : ∀ m, m.marks.length ≤ 8 → (f m).marks.length ≤ 8) : (s.alarmEvent n f).AlarmsSafe := by
  obtain ⟨hunits, hfollow⟩ := hs
  refine ⟨fun m => ?_, fun l => ?_⟩
  · by_cases hm : m = n
    · subst hm
      rw [alarmEvent_mon]
      exact summarise_safe (hmarks _ (hunits m).1)
    · rw [alarmEvent_other hm]
      exact hunits m
  · rw [alarmEvent_line]
    intro hmode
    by_cases hl : s.lines[l].mode = .alarm ∧ s.lines[l].owner = some n
    · rw [Line.followSummary, if_pos hl]
      refine ⟨(hfollow l hl.1).1, ?_⟩
      simp only [hl.2]
    · rw [Line.followSummary, if_neg hl] at hmode ⊢
      exact lineSafe_congr (fun m hm => by rw [alarmEvent_other fun (e : m = n) => hl ⟨hmode, e ▸ hm⟩]) (hfollow l) hmode

/-- A line is changed into one that is right. -/
theorem alarmsSafe_modLine {s : State} (hs : s.AlarmsSafe) (l : Fin 16) {f : Line → Line} (h : s.LineSafe (f s.lines[l])) :
    (s.modLine l f).AlarmsSafe := by
  obtain ⟨hunits, hfollow⟩ := hs
  refine ⟨hunits, fun k => ?_⟩
  simp only [Fin.getElem_fin, State.modLine_get]
  split
  · exact h
  · exact hfollow k

/-- A drive leaves a line in CUE mode there (R157). -/
theorem drive_safe {s : State} {x : Line} (h : x.mode = .cue) (counter : Long) (d : Drive) : s.LineSafe (x.drive counter d) := by
  have hmode : (x.drive counter d).mode = .cue := by cases d <;> exact h
  intro halarm
  rw [hmode] at halarm
  cases halarm

/-- The end of a pulse passes over an ALARM-mode line (R157, R158). -/
theorem endPulse_safe {s : State} {x : Line} (hx : s.LineSafe x) (counter : Long) : s.LineSafe (x.endPulse counter) := by
  unfold Line.endPulse
  split
  · next hp =>
    intro hmode
    rw [(hx hmode).1] at hp
    cases hp
  · exact hx

/-- CONTACT-SET sets an ALARM-mode line from its owner's summary (R159). -/
theorem lineOf_safe (s : State) (owner : Option (Fin 8)) (mode : LineMode) (threshold : Nat) :
    s.LineSafe (s.lineOf owner mode threshold) := by
  intro hmode
  obtain rfl : mode = .alarm := hmode
  cases owner <;> exact ⟨rfl, rfl⟩

/-- At power-on no alarm stands, and every line is in CUE mode (R132, R156). -/
theorem powerOn_alarmsSafe (straps : BitVec 4) (queue : List Instr) : (State.powerOn straps queue).AlarmsSafe := by
  refine ⟨fun n => ?_, fun l hmode => ?_⟩
  · have hnone : monitorPowerOn.formSummary = none := by
      refine (formSummary_none _).2 fun id => ?_
      simp [monitorPowerOn, Alarm.stands, alarmClear]
    simp only [State.powerOn, Fin.getElem_fin, Vector.getElem_replicate, screenPowerOn]
    exact ⟨Nat.zero_le _, hnone.symm⟩
  · simp [State.powerOn, linePowerOn] at hmode

theorem change_alarmsSafe (s t : State) (h : Change s t) (hs : s.AlarmsSafe) : t.AlarmsSafe := by
  cases h with
  | port p f | arb p f => exact alarmsSafe_of_same hs rfl rfl
  | ctx n f | link n f | dec n f | eng n f | load n f | cues n g | quiet n q | notice n f =>
    exact alarmsSafe_modScreen hs n (.refl _)
  | alarm n f h => exact alarmsSafe_alarmEvent hs n h
  | mon n f h => exact alarmsSafe_modScreen hs n (h.kept _)
  | frame n x => exact alarmsSafe_modScreen hs n (frame_kept x _)
  | cueIn n k h =>
    obtain ⟨free, f, rfl⟩ := loadCue_shape h
    exact alarmsSafe_modCues hs n free f
  | cueOut n id =>
    obtain ⟨free, f, he⟩ := deleteCue_shape s n id
    exact he ▸ alarmsSafe_modCues hs n free f
  | choice n =>
    unfold State.choose
    simp only
    split
    · exact alarmsSafe_modScreen hs n (noticed_kept _ _)
    · exact hs
  | done n e rest => exact alarmsSafe_modScreen hs n (noticeAgain_kept e _)
  | drive l counter d h => exact alarmsSafe_modLine hs l (drive_safe h counter d)
  | lineSet l owner mode threshold => exact alarmsSafe_modLine hs l (lineOf_safe s owner mode threshold)
  | pulse l counter => exact alarmsSafe_modLine hs l (endPulse_safe (hs.2 l) counter)
  | pulses counter =>
    refine ⟨hs.1, fun l => ?_⟩
    simp only [State.tickLines, Fin.getElem_fin, Vector.getElem_ofFn]
    exact endPulse_safe (hs.2 l) counter
  | rest h =>
    obtain ⟨-, -, hscreens, hlines, -, -⟩ := h
    exact alarmsSafe_of_same hs hscreens hlines
  | restart straps frame free => exact powerOn_alarmsSafe straps s.pending
  | powerLoss =>
    refine alarmsSafe_of_kept hs (fun n => ?_) rfl
    simp only [State.losePower, Fin.getElem_fin, Vector.getElem_ofFn]
    exact .refl _

/-! ### The notice stack -/

/-- Levels fall towards the top of a stack, from 2 at most, so three entries fill it (R162). -/
theorem stackSafe_length {ceiling : Nat} {stack : List StackEntry} (h : StackSafe ceiling stack) : stack.length ≤ 3 - ceiling := by
  induction stack generalizing ceiling with
  | nil => exact Nat.zero_le _
  | cons e rest ih =>
    obtain ⟨hceiling, hlevel, hsaved, hrest⟩ := h
    have hlength := ih hrest
    simp only [List.length_cons]
    omega

theorem noticeSafe_of_stack {u : NoticeUnit} (h : StackSafe u.ceiling u.stack) : u.Safe :=
  ⟨h, (stackSafe_length h).trans (Nat.sub_le _ _)⟩

theorem qualifies_iff (ceiling level : Nat) : qualifies ceiling level = true ↔ level ≤ 2 ∧ level < ceiling := by
  simp [qualifies]

/-- An alarm that is a candidate for a notice qualifies (R161). -/
theorem alarmCandidate_qualifies {x : Screen} {id : Fin 54} (h : x.alarmCandidate = some id) :
    qualifies x.notice.ceiling (x.mon.levelOf id) = true := by
  unfold Screen.alarmCandidate at h
  refine List.foldlRecOn (motive := fun best => ∀ i, best = some i → qualifies x.notice.ceiling (x.mon.levelOf i) = true) _ _
    (fun i hi => by cases hi) (fun best hbest a _ i hi => ?_) id h
  split at hi
  · next ha =>
    split at hi
    · obtain rfl := Option.some.inj hi
      exact ha.2
    · split at hi
      · obtain rfl := Option.some.inj hi
        exact ha.2
      · exact hbest i hi
  · exact hbest i hi

/-- A mark that is a candidate for a notice qualifies (R161). -/
theorem markCandidate_qualifies {x : Screen} {m : Mark} (h : x.markCandidate = some m) :
    qualifies x.notice.ceiling m.level = true := by
  unfold Screen.markCandidate at h
  split at h
  · split at h
    · next hq =>
      obtain rfl := Option.some.inj h
      exact hq
    · cases h
  · cases h

/-- A notice is chosen at a level of 0, 1 or 2, below the ceiling (R161, R162). -/
theorem candidate_qualifies {x : Screen} {src : NoticeSource} {level : Nat} (h : x.candidate = some (src, level)) :
    qualifies x.notice.ceiling level = true := by
  unfold Screen.candidate at h
  split at h
  · next hid hm =>
    split at h
    · cases h; exact alarmCandidate_qualifies hid
    · cases h; exact markCandidate_qualifies hm
  · next hid _ => cases h; exact alarmCandidate_qualifies hid
  · next hm => cases h; exact markCandidate_qualifies hm
  · cases h

/-- A chosen notice goes on the stack under its own level as the ceiling (R162). -/
theorem push_safe {u : NoticeUnit} (h : u.Safe) {level : Nat} (hq : qualifies u.ceiling level = true) (src : NoticeSource)
    (words : List Word) : (u.push src level words).Safe := by
  obtain ⟨hlow, hunder⟩ := (qualifies_iff _ _).1 hq
  exact noticeSafe_of_stack ⟨rfl, hlow, hunder, h.1⟩

/-- The removal of the top entry restores the ceiling it saved (R164). -/
theorem pop_safe {u : NoticeUnit} (h : u.Safe) {e : StackEntry} {rest : List StackEntry} (hstack : u.stack = e :: rest) :
    (u.pop e rest).Safe := by
  have hsafe := h.1
  rw [hstack] at hsafe
  obtain ⟨-, -, -, hrest⟩ := hsafe
  exact noticeSafe_of_stack hrest

theorem noticesSafe_of_screens {s t : State} (hs : s.NoticesSafe)
    (h : ∀ n : Fin 8, s.screens[n].notice.Safe → t.screens[n].notice.Safe) : t.NoticesSafe := fun n => h n (hs n)

theorem noticesSafe_modScreen {s : State} (hs : s.NoticesSafe) (n : Fin 8) {f : Screen → Screen}
    (h : s.screens[n].notice.Safe → (f s.screens[n]).notice.Safe) : (s.modScreen n f).NoticesSafe := by
  refine noticesSafe_of_screens hs fun m => ?_
  simp only [Fin.getElem_fin, State.modScreen_get]
  split
  · next hm => subst hm; exact h
  · exact id

theorem noticesSafe_of_same {s t : State} (hs : s.NoticesSafe) (hscreens : t.screens = s.screens) : t.NoticesSafe :=
  noticesSafe_of_screens hs fun n => by rw [hscreens]; exact id

theorem noticesSafe_modCues {s : State} (hs : s.NoticesSafe) (n : Fin 8) (free : List Nat) (f : List Cue → List Cue) :
    ({ s with freeStack := free }.modCues n f).NoticesSafe :=
  noticesSafe_modScreen (noticesSafe_of_same (t := { s with freeStack := free }) hs rfl) n
    (f := fun x => { x with cues := f x.cues }) fun h => h

/-- At power-on every stack is empty under an open ceiling (R174). -/
theorem powerOn_noticesSafe (straps : BitVec 4) (queue : List Instr) : (State.powerOn straps queue).NoticesSafe := by
  intro n
  simp only [State.powerOn, Fin.getElem_fin, Vector.getElem_replicate, screenPowerOn]
  exact noticeSafe_of_stack rfl

theorem frame_notice (x : Inputs) (sc : Screen) : (sc.frame x).notice = sc.notice := by
  unfold Screen.frame
  split <;> rfl

theorem change_noticesSafe (s t : State) (h : Change s t) (hs : s.NoticesSafe) : t.NoticesSafe := by
  cases h with
  | port p f | arb p f | drive l counter d | lineSet l owner mode threshold | pulse l counter | pulses counter => exact hs
  | ctx n f | link n f | dec n f | eng n f | load n f | mon n f | cues n g | quiet n q => exact noticesSafe_modScreen hs n id
  | alarm n f => exact noticesSafe_of_same (noticesSafe_modScreen hs n id) (alarmEvent_screens s n f)
  | frame n x => exact noticesSafe_modScreen hs n fun h => by rw [frame_notice]; exact h
  | cueIn n k h =>
    obtain ⟨free, f, rfl⟩ := loadCue_shape h
    exact noticesSafe_modCues hs n free f
  | cueOut n id =>
    obtain ⟨free, f, he⟩ := deleteCue_shape s n id
    exact he ▸ noticesSafe_modCues hs n free f
  | notice n f h => exact noticesSafe_modScreen hs n (h _)
  | choice n =>
    unfold State.choose
    simp only
    split
    · next src level _ _ hc =>
      exact noticesSafe_modScreen hs n fun h => push_safe h (candidate_qualifies hc) src _
    · exact hs
  | done n e rest hstack => exact noticesSafe_modScreen hs n fun h => pop_safe h hstack
  | rest h =>
    obtain ⟨-, -, hscreens, -, -, -⟩ := h
    exact noticesSafe_of_same hs hscreens
  | restart straps frame free => exact powerOn_noticesSafe straps s.pending
  | powerLoss =>
    refine noticesSafe_of_screens hs fun n => ?_
    simp only [State.losePower, Fin.getElem_fin, Vector.getElem_ofFn]
    exact id

/-! ### Cue lists -/

theorem cueListSafe_map {l : List Cue} (h : CueListSafe l) {g : Cue → Cue} (hg : ∀ c, (g c).id = c.id ∧ (g c).trigger = c.trigger) :
    CueListSafe (l.map g) := by
  obtain ⟨hsorted, hids⟩ := h
  have hbefore (a b : Cue) : (g a).before (g b) = a.before b := by
    simp only [Cue.before, (hg a).1, (hg a).2, (hg b).1, (hg b).2]
  have hid : (fun c => (g c).id) = fun c => c.id := funext fun c => (hg c).1
  refine ⟨?_, ?_⟩
  · simpa only [List.pairwise_map, hbefore] using hsorted
  · simpa only [List.map_map, Function.comp_def, hid] using hids

theorem cueListSafe_removeCue {l : List Cue} (h : CueListSafe l) (id : Nat) : CueListSafe (removeCue id l) := by
  obtain ⟨hsorted, hids⟩ := h
  exact ⟨hsorted.filter _, hids.sublist (List.filter_sublist.map _)⟩

theorem mem_removeCue {id : Nat} {l : List Cue} {c : Cue} : c ∈ removeCue id l ↔ c ∈ l ∧ c.id ≠ id := by
  simp [removeCue]

/-- A cue is placed in a list that holds no other of its id (R134). -/
theorem cueListSafe_placeCue {l : List Cue} (h : CueListSafe l) {c : Cue} (hc : ∀ d ∈ l, d.id ≠ c.id) :
    CueListSafe (placeCue c l) := by
  obtain ⟨hsorted, hids⟩ := h
  refine ⟨placeCue_sorted c l hsorted hc, ?_⟩
  rw [((placeCue_perm c l).map _).nodup_iff, List.map_cons, List.nodup_cons, List.mem_map]
  exact ⟨fun ⟨d, hd, he⟩ => hc d hd he, hids⟩

theorem findCue_none {id : Nat} {l : List Cue} (h : findCue id l = none) : ∀ d ∈ l, d.id ≠ id := by
  simpa [findCue] using h

/-- The cue found is the one that a removal takes out (R134, R151). -/
theorem removeCue_perm {id : Nat} {l : List Cue} {c : Cue} (hids : (l.map (·.id)).Nodup) (h : findCue id l = some c) :
    l.Perm (c :: removeCue id l) := by
  induction l with
  | nil => cases h
  | cons d ds ih =>
    obtain ⟨hd, hds⟩ := List.nodup_cons.1 hids
    by_cases he : d.id = id
    · have hfound : d = c := by simpa [findCue, he] using h
      have hrest : removeCue id ds = ds := by
        refine List.filter_eq_self.2 fun e hmem => ?_
        simp only [bne_iff_ne]
        exact fun hx => hd (List.mem_map.2 ⟨e, hmem, hx.trans he.symm⟩)
      have hremoved : removeCue id (d :: ds) = ds := by
        rw [← hrest]
        simp [removeCue, he]
      rw [hremoved, hfound]
    · have hfound : findCue id ds = some c := by simpa [findCue, he] using h
      have hremoved : removeCue id (d :: ds) = d :: removeCue id ds := by simp [removeCue, he]
      rw [hremoved]
      exact ((ih hds hfound).cons d).trans (.swap c d _)

/-! ### The cue pool -/

/-- The pool records that hold the cues of the screens but `n`. -/
def State.otherRecords (s : State) (n : Fin 8) : List Nat :=
  ((List.finRange 8).erase n).flatMap fun m => s.screens[m].cues.map (·.record)

theorem cueRecords_perm (s : State) (n : Fin 8) :
    s.cueRecords.Perm (s.screens[n].cues.map (·.record) ++ s.otherRecords n) :=
  (List.perm_cons_erase (List.mem_finRange n)).flatMap_right _

theorem otherRecords_congr {s t : State} {n : Fin 8} (h : ∀ m : Fin 8, m ≠ n → t.screens[m].cues = s.screens[m].cues) :
    t.otherRecords n = s.otherRecords n := by
  refine List.flatMap_congr fun m hm => ?_
  rw [h m ((List.nodup_finRange 8).mem_erase_iff.1 hm).1]

/-- A change of one screen's list that trades records with the free stack keeps every record in one place (R133). -/
theorem cuesSafe_of_list {s t : State} (hs : s.CuesSafe) (n : Fin 8)
    (hother : ∀ m : Fin 8, m ≠ n → t.screens[m].cues = s.screens[m].cues) (hlist : CueListSafe t.screens[n].cues)
    (hrecords : (t.freeStack ++ t.screens[n].cues.map (·.record)).Perm (s.freeStack ++ s.screens[n].cues.map (·.record))) :
    t.CuesSafe := by
  obtain ⟨hlists, hpool⟩ := hs
  refine ⟨fun m => ?_, ?_⟩
  · by_cases hm : m = n
    · exact hm ▸ hlist
    · rw [hother m hm]
      exact hlists m
  · calc t.freeStack ++ t.cueRecords
        |>.Perm (t.freeStack ++ (t.screens[n].cues.map (·.record) ++ t.otherRecords n)) := (cueRecords_perm t n).append_left _
      List.Perm _ (s.freeStack ++ (s.screens[n].cues.map (·.record) ++ s.otherRecords n)) := by
        rw [otherRecords_congr hother, ← List.append_assoc, ← List.append_assoc]
        exact hrecords.append_right _
      List.Perm _ (s.freeStack ++ s.cueRecords) := ((cueRecords_perm s n).append_left _).symm
      List.Perm _ (List.range 512) := hpool

theorem cuesSafe_modCues {s : State} {free : List Nat} (hs : s.CuesSafe) (n : Fin 8) {f : List Cue → List Cue}
    (hlist : CueListSafe (f s.screens[n].cues))
    (hrecords : (free ++ (f s.screens[n].cues).map (·.record)).Perm (s.freeStack ++ s.screens[n].cues.map (·.record))) :
    ({ s with freeStack := free }.modCues n f).CuesSafe := by
  have hown : ({ s with freeStack := free }.modCues n f).screens[n].cues = f s.screens[n].cues := by simp
  refine cuesSafe_of_list hs n (fun m hm => ?_) (by rw [hown]; exact hlist) (by rw [hown]; exact hrecords)
  exact congrArg Screen.cues (State.modScreen_other { s with freeStack := free } n m _ hm)

theorem cuesSafe_of_same {s t : State} (hs : s.CuesSafe) (hcues : ∀ n : Fin 8, t.screens[n].cues = s.screens[n].cues)
    (hfree : t.freeStack = s.freeStack) : t.CuesSafe := by
  obtain ⟨hlists, hpool⟩ := hs
  refine ⟨fun n => ?_, ?_⟩
  · rw [hcues n]
    exact hlists n
  · simpa only [State.cueRecords, hcues, hfree] using hpool

theorem cuesSafe_modScreen {s : State} (hs : s.CuesSafe) (n : Fin 8) {f : Screen → Screen}
    (h : (f s.screens[n]).cues = s.screens[n].cues) : (s.modScreen n f).CuesSafe := by
  refine cuesSafe_of_same hs (fun m => ?_) rfl
  simp only [Fin.getElem_fin, State.modScreen_get]
  split
  · next hm => subst hm; exact h
  · rfl

/-- A load keeps the record of the cue it replaces, or takes the top of the free stack (R149). -/
theorem loadCue_cuesSafe {s t : State} (hs : s.CuesSafe) {n : Fin 8} {k : CueOperand} (h : s.loadCue n k = some t) :
    t.CuesSafe := by
  have hlist := hs.1 n
  unfold State.loadCue at h
  simp only at h
  split at h
  · next c hfound =>
    cases h
    refine cuesSafe_modCues (free := s.freeStack) hs n
      (cueListSafe_placeCue (cueListSafe_removeCue hlist k.id) fun d hd => (mem_removeCue.1 hd).2) (.append_left _ ?_)
    exact ((placeCue_perm _ _).map _).trans ((removeCue_perm hlist.2 hfound).map (·.record)).symm
  · next hnew =>
    split at h
    · next record rest hfree =>
      cases h
      refine cuesSafe_modCues hs n (cueListSafe_placeCue hlist (findCue_none hnew)) ?_
      rw [hfree]
      exact (((placeCue_perm _ _).map _).append_left rest).trans List.perm_middle
    · cases h

/-- A deletion returns the cue's record to the free stack (R151). -/
theorem deleteCue_cuesSafe {s : State} (hs : s.CuesSafe) (n : Fin 8) (id : Nat) : (s.deleteCue n id).CuesSafe := by
  have hlist := hs.1 n
  unfold State.deleteCue
  split
  · next c hfound =>
    refine cuesSafe_modCues hs n (cueListSafe_removeCue hlist id) ?_
    exact List.perm_middle.symm.trans (((removeCue_perm hlist.2 hfound).map _).symm.append_left _)
  · exact hs

/-- At power-on every list is empty and every record is free (R155). -/
theorem powerOn_cuesSafe (straps : BitVec 4) (queue : List Instr) : (State.powerOn straps queue).CuesSafe := by
  have hcues (n : Fin 8) : (State.powerOn straps queue).screens[n].cues = [] := by simp [State.powerOn, screenPowerOn]
  refine ⟨fun n => ?_, ?_⟩
  · rw [hcues n]
    exact ⟨.nil, .nil⟩
  · have hrecords : (State.powerOn straps queue).cueRecords = [] :=
      List.flatMap_eq_nil_iff.2 fun n _ => by rw [hcues n, List.map_nil]
    have hfree : (State.powerOn straps queue).freeStack = List.range 512 := by simp only [State.powerOn, poolSize]
    rw [hrecords, hfree, List.append_nil]

theorem frame_cues (x : Inputs) (sc : Screen) : (sc.frame x).cues = sc.cues := by
  unfold Screen.frame
  split <;> rfl

theorem change_cuesSafe (s t : State) (h : Change s t) (hs : s.CuesSafe) : t.CuesSafe := by
  cases h with
  | port p f | arb p f | drive l counter d | lineSet l owner mode threshold | pulse l counter | pulses counter => exact hs
  | ctx n f | link n f | dec n f | eng n f | load n f | mon n f | quiet n q | notice n f | done n e rest =>
    exact cuesSafe_modScreen hs n rfl
  | alarm n f =>
    have hscreens := alarmEvent_screens s n f
    exact cuesSafe_of_same (cuesSafe_modScreen hs n rfl) (fun m => by rw [hscreens]; rfl) rfl
  | frame n x => exact cuesSafe_modScreen hs n (frame_cues x _)
  | cues n g hg =>
    refine cuesSafe_modCues (free := s.freeStack) hs n (cueListSafe_map (hs.1 n) fun c => ⟨(hg c).1, (hg c).2.1⟩) ?_
    have hrecord : (fun c => (g c).record) = fun c => c.record := funext fun c => (hg c).2.2
    rw [List.map_map, Function.comp_def, hrecord]
  | cueIn n k h => exact loadCue_cuesSafe hs h
  | cueOut n id => exact deleteCue_cuesSafe hs n id
  | choice n =>
    unfold State.choose
    simp only
    split
    · exact cuesSafe_modScreen hs n rfl
    · exact hs
  | rest h =>
    obtain ⟨-, -, hscreens, -, hfree, -⟩ := h
    exact cuesSafe_of_same hs (fun n => by rw [hscreens]) hfree
  | restart straps frame free => exact cuesSafe_of_same (powerOn_cuesSafe straps s.pending) (fun _ => rfl) (by dsimp only)
  | powerLoss =>
    refine cuesSafe_of_same hs (fun n => ?_) rfl
    simp only [State.losePower, Fin.getElem_fin, Vector.getElem_ofFn]
    rfl

/-! ### The statement -/

/-- Settles O59: each of the three conditions is kept by every single change. -/
theorem alarmsNoticesAndCuesStaySafe : Obligations.AlarmsNoticesAndCuesStaySafe := fun _ _ h =>
  ⟨step_keeps change_alarmsSafe (fun _ _ _ _ _ hs => hs) (fun _ _ hs => hs) h,
    step_keeps change_noticesSafe (fun _ _ _ _ _ hs => hs) (fun _ _ hs => hs) h,
    step_keeps change_cuesSafe (fun _ _ _ _ _ hs => hs) (fun _ _ hs => hs) h⟩

end Sys2Proof.Machine
end

-- Proofs/AlarmRequests: the requests on an alarm unit (O26 to O28)
section
/-! ALARM-SET is an alarm event that returns one class to CLEAR; ALARM-ACK and ALARM-TEST change the pending set of a checked list
of ids (R115, R122 to R125). -/

namespace Sys2Proof.Machine

/-! ### ALARM-SET -/

/-- The threshold that is stored, in the terms of the statement (R115). -/
theorem storedThreshold_eq (cls : AlarmClass) (x : Int) :
    storedThreshold cls x = if cls = .over ∨ cls = .silent then some (max (-8388608) (min 8388607 x)) else none := by
  cases cls <;> rfl

/-- Settles O26: `alarmEvent_clearsAlarms`, for the unit with its class record replaced. -/
theorem alarmSetReplacesTheClassRecord : Obligations.AlarmSetReplacesTheClassRecord := by
  intro h cls x s
  refine under_screen (answerAlarmSet h cls x) rfl rfl rfl rfl fun n hn hx => ?_
  intro m record
  have hanswer : answerAlarmSet h cls x s = _ := onScreen_at hn _
  refine ⟨fun hbad => ?_, fun hgood => ⟨s.alarmEvent n (Monitor.setClass cls (classRecordOf cls x)), ?_, ?_⟩⟩
  · rw [hx, outcome_refuse (hanswer.trans (if_neg (Nat.not_le.2 hbad)))]
  · rw [hx, outcome_done (hanswer.trans (if_pos hgood))]
  · have hrecord : classRecordOf cls x = record := by simp only [classRecordOf, storedThreshold_eq, record]
    rw [hrecord]
    exact alarmEvent_clearsAlarms rfl fun id => beq_iff_eq

/-! ### ALARM-ACK and ALARM-TEST -/

/-- A list of 1 to 54 ids, none above 53, is taken with the ids it names (R124). -/
theorem alarmIds_some {ids : List Nat} (hleast : 1 ≤ ids.length) (hmost : ids.length ≤ 54) (hids : ∀ id ∈ ids, id ≤ 53) :
    ∃ l, alarmIds ids = some l ∧ ∀ id, id ∈ l ↔ id.val ∈ ids := by
  obtain ⟨l, rfl⟩ : ∃ l : List (Fin 54), ids = l.map (·.val) :=
    ⟨ids.pmap Fin.mk fun id hid => Nat.lt_succ_of_le (hids id hid), by simp [List.map_pmap]⟩
  refine ⟨l, ?_, fun id => by simp [Fin.val_inj]⟩
  rw [alarmIds, if_pos ⟨hleast, hmost⟩, allKnown_eq_some, List.map_map]
  exact List.map_congr_left fun id _ => index?_val id

/-- An empty list, a list of more than 54 and an id above 53 are refused (R124). -/
theorem alarmIds_none {ids : List Nat} (h : ids = [] ∨ 55 ≤ ids.length ∨ ∃ id ∈ ids, 54 ≤ id) : alarmIds ids = none := by
  refine Option.eq_none_iff_forall_ne_some.2 fun l hl => ?_
  unfold alarmIds at hl
  split at hl
  · next hlength =>
    rcases h with rfl | hlong | ⟨id, hid, hbig⟩
    · exact absurd hlength.1 (by decide)
    · omega
    · have hunknown : index? 54 id ∈ l.map some := allKnown_eq_some.1 hl ▸ List.mem_map_of_mem hid
      simp [index?, Nat.not_lt.2 hbig] at hunknown
  · cases hl

section
variable {h : ReqHead} {ids : List Nat} {s : State} {n : Fin 8} {l : List (Fin 54)}

theorem answerAlarmAck_refused (hn : h.screen.toNat = n.val) (hl : alarmIds ids = none) :
    answerAlarmAck h ids s = .refuse .range := by
  rw [answerAlarmAck, onScreen_at hn, hl]

theorem answerAlarmAck_done (hn : h.screen.toNat = n.val) (hl : alarmIds ids = some l) :
    answerAlarmAck h ids s = .done (s.modMon n (Monitor.acknowledge l)) [] := by
  rw [answerAlarmAck, onScreen_at hn, hl]

theorem answerAlarmTest_refused (hn : h.screen.toNat = n.val) (hl : alarmIds ids = none) :
    answerAlarmTest h ids s = .refuse .range := by
  rw [answerAlarmTest, onScreen_at hn, hl]

theorem answerAlarmTest_done (hn : h.screen.toNat = n.val) (hl : alarmIds ids = some l) :
    answerAlarmTest h ids s = .done (s.modMon n (Monitor.test l)) [] := by
  rw [answerAlarmTest, onScreen_at hn, hl]

end

/-- Settles O27: a list that is taken clears its ids' flags. -/
theorem alarmAckRemovesFromThePendingSet : Obligations.AlarmAckRemovesFromThePendingSet := by
  intro h ids s
  refine under_screen (answerAlarmAck h ids) rfl rfl rfl rfl fun n hn hx => ⟨fun hbad => ?_, fun hleast hmost hids => ?_⟩
  · rw [hx, outcome_refuse (answerAlarmAck_refused hn (alarmIds_none hbad))]
  · obtain ⟨l, hl, hmem⟩ := alarmIds_some hleast hmost hids
    rw [hx, outcome_done (answerAlarmAck_done hn hl)]
    simp only [← hmem]
    rfl

/-- Settles O28: a list that is taken sets its ids' flags, unnoticed. -/
theorem alarmTestAddsToThePendingSet : Obligations.AlarmTestAddsToThePendingSet := by
  intro h ids s
  refine under_screen (answerAlarmTest h ids) rfl rfl rfl rfl fun n hn hx => ⟨fun hbad => ?_, fun hleast hmost hids => ?_⟩
  · rw [hx, outcome_refuse (answerAlarmTest_refused hn (alarmIds_none hbad))]
  · obtain ⟨l, hl, hmem⟩ := alarmIds_some hleast hmost hids
    rw [hx, outcome_done (answerAlarmTest_done hn hl)]
    simp only [← hmem]
    rfl

end Sys2Proof.Machine
end

-- Proofs/BoundaryAlarms: alarms and ALARM-mode lines at a boundary (O51)
section
/-! What a boundary makes of one alarm is read off the unit's own definitions (R111, R112, R116 to R123). The contact lines
and the pending flags are followed through the boundary's other work, which leaves them alone (R157, R158). -/

namespace Sys2Proof.Machine

/-! ### One alarm -/

/-- Only an entry into RAISED from CLEAR or QUALIFYING is told (R118). -/
theorem occurrence_told {r : ClassRecord} {a : Alarm} (h : (a.occurrence r).2 = true) :
    (a.occurrence r).1.state = .raised ∧ (a.state = .clear ∨ a.state = .qualifying) := by
  cases hs : a.state with
  | clear => by_cases hc : r.count ≤ 1 <;> simp_all [Alarm.occurrence]
  | qualifying => by_cases hc : r.count ≤ a.count + 1 <;> simp_all [Alarm.occurrence]
  | raised | releasing => simp [Alarm.occurrence, hs] at h

/-- What the boundary step makes of an alarm (R117). -/
theorem boundaryStep_atBoundaryStep (r : ClassRecord) (a : Alarm) : AtBoundaryStep r a (a.boundaryStep r) := by
  refine ⟨fun h => ?_, fun h => ⟨fun hl => ?_, fun hl => ?_⟩, fun h => ⟨fun hh => ?_, fun hh hr => ?_, fun hh hr => ?_⟩,
    fun h hh => ⟨fun hr => ?_, fun hr => ?_⟩⟩
  · simp only [Alarm.boundaryStep, h]
  · simp only [Alarm.boundaryStep, h, hl, if_true, clearInstance, alarmClear]
  · simp only [Alarm.boundaryStep, h, Nat.not_le.2 hl, if_false]
  · simp only [Alarm.boundaryStep, h, hh, if_true]
  · simp only [Alarm.boundaryStep, h, hh, hr, if_true, clearInstance, alarmClear]; rfl
  · simp only [Alarm.boundaryStep, h, hh, Nat.ne_of_gt hr, if_false]; rfl
  · simp only [Alarm.boundaryStep, h, hh, hr, if_true, clearInstance, alarmClear]; rfl
  · simp only [Alarm.boundaryStep, h, hh, Nat.not_le.2 hr, if_false]; rfl

/-! ### The condition of an alarm id -/

/-- A level at or above a threshold (R111). -/
theorem atOrAbove_iff (threshold : Option Int) (level : Int) :
    atOrAbove threshold level = true ↔ ∃ v, threshold = some v ∧ v ≤ level := by
  cases threshold <;> simp [atOrAbove]

/-- A level below a threshold (R111). -/
theorem below_iff (threshold : Option Int) (level : Int) :
    below threshold level = true ↔ ∃ v, threshold = some v ∧ level < v := by
  cases threshold <;> simp [below]

/-- The alarm ids of the classes with a block condition (section 6.2). -/
theorem classOf_iff (id : Fin 54) :
    (classOf id = .over ↔ id.val = 16 + (channelOf id).val) ∧ (classOf id = .silent ↔ id.val = 32 + (channelOf id).val) ∧
    (classOf id = .source ↔ id = 48) ∧ (classOf id = .amp ↔ id = 50) ∧ (classOf id = .link ↔ id = 51) ∧
    (classOf id = .format ↔ id = 53) := by
  revert id
  decide

/-- The channel of a per-channel id is the one its number gives. -/
theorem exists_channel {b : Nat} (hb : b % 16 = 0) {id : Fin 54} {Q : Fin 16 → Prop} :
    (∃ c : Fin 16, id.val = b + c.val ∧ Q c) ↔ id.val = b + (channelOf id).val ∧ Q (channelOf id) := by
  refine ⟨fun ⟨c, hid, hq⟩ => ?_, fun h => ⟨_, h⟩⟩
  have hc : channelOf id = c := Fin.ext (by simp only [channelOf]; omega)
  exact hc ▸ ⟨hc ▸ hid, hq⟩

/-- The condition of an alarm id, class by class (R111, R112). -/
theorem condition_of_class (h : Handed) (m : Monitor) (id : Fin 54) : m.condition h id = true ↔
    (classOf id = .over ∧ atOrAbove (m.record id).threshold m.meters[channelOf id].level = true) ∨
    (classOf id = .silent ∧ h.expected[channelOf id] = true ∧ below (m.record id).threshold m.meters[channelOf id].level = true) ∨
    (classOf id = .source ∧ h.source = true) ∨ (classOf id = .amp ∧ h.amp = true) ∨ (classOf id = .link ∧ h.link = true) ∨
    (classOf id = .format ∧ h.format = true) := by
  unfold Monitor.condition
  cases classOf id <;> simp

/-- The condition of an alarm id, by its number (R111, R112). -/
theorem condition_iff (h : Handed) (m : Monitor) (id : Fin 54) : m.condition h id = true ↔
    (∃ c : Fin 16, id.val = 16 + c.val ∧
      ∃ v, (m.record ⟨16 + c.val, by omega⟩).threshold = some v ∧ v ≤ m.meters[c].level) ∨
    (∃ c : Fin 16, id.val = 32 + c.val ∧ h.expected[c] = true ∧
      ∃ v, (m.record ⟨32 + c.val, by omega⟩).threshold = some v ∧ m.meters[c].level < v) ∨
    (id = 48 ∧ h.source = true) ∨ (id = 50 ∧ h.amp = true) ∨ (id = 51 ∧ h.link = true) ∨ (id = 53 ∧ h.format = true) := by
  obtain ⟨hover, hsilent, hsource, hamp, hlink, hformat⟩ := classOf_iff id
  rw [condition_of_class, exists_channel rfl, exists_channel rfl, hover, hsilent, hsource, hamp, hlink, hformat]
  refine or_congr (and_congr_right fun hid => ?_) (or_congr (and_congr_right fun hid => and_congr_right fun _ => ?_) Iff.rfl)
  · rw [show (⟨16 + (channelOf id).val, by omega⟩ : Fin 54) = id from Fin.ext hid.symm, atOrAbove_iff]
  · rw [show (⟨32 + (channelOf id).val, by omega⟩ : Fin 54) = id from Fin.ext hid.symm, below_iff]

/-- What a screen hands to its unit, in the terms of the statement (R41, R53, R55, R112). -/
theorem handing_conditions (t : State) (y : Screen) :
    ((t.handing y).source = true ↔ ∃ q, y.ctx.primary = some q ∧ t.ports[q].state = .lost) ∧
    ((t.handing y).amp = true ↔ ∃ k : Fin 16, y.dec.map[k].role.isSome = true ∧ y.link.presented[k] ≠ .ok) ∧
    ((t.handing y).link = true ↔ y.link.link ≠ .up) := by
  refine ⟨portIs_iff t _ _, ?_, linkCondition_iff _⟩
  simp [State.handing, Screen.ampCondition]

/-! ### One alarm at a boundary -/

section
variable (h : Handed) (m : Monitor) (id : Fin 54)

/-- The ending block's occurrence, where the condition holds (R111, R112, R116). -/
theorem occurrenceAt_cases :
    (m.condition h id = true → AtOccurrence (m.record id) m.alarms[id].resumed (m.occurrenceAt h id).1) ∧
    (m.condition h id ≠ true → (m.occurrenceAt h id).1 = m.alarms[id].resumed) := by
  refine ⟨fun hc => ?_, fun hc => ?_⟩
  · rw [Monitor.occurrenceAt, if_pos hc]
    exact occurrence_atOccurrence _ _
  · rw [Monitor.occurrenceAt, if_neg hc]

/-- An entry into RAISED is told (R118). -/
theorem occurrenceAt_told : (m.occurrenceAt h id).2 = true ↔ (m.occurrenceAt h id).1.state = .raised ∧
    (m.alarms[id].resumed.state = .clear ∨ m.alarms[id].resumed.state = .qualifying) := by
  by_cases hc : m.condition h id = true
  · rw [Monitor.occurrenceAt, if_pos hc]
    exact ⟨occurrence_told, fun ⟨hraised, hfrom⟩ => occurrence_entersRaised hfrom hraised⟩
  · rw [Monitor.occurrenceAt, if_neg hc]
    refine ⟨fun hf => absurd hf Bool.false_ne_true, fun ⟨hraised, hfrom⟩ => ?_⟩
    simp only at hraised
    rcases hfrom with hfrom | hfrom <;> rw [hfrom] at hraised <;> cases hraised

/-- A flag that is set stays, and one that is not is set by an entry into RAISED (R118, R123). -/
theorem pendingAfter_cases :
    (m.pending[id].isSome = true → (m.pendingAfter h id).isSome = true) ∧
    (m.pending[id] = none → m.watches id = false → m.pendingAfter h id = none) ∧
    (m.pending[id] = none → m.watches id = true → m.pendingAfter h id =
      if (m.occurrenceAt h id).1.state = .raised ∧
          (m.alarms[id].resumed.state = .clear ∨ m.alarms[id].resumed.state = .qualifying) then some false else none) := by
  refine ⟨fun hp => ?_, fun hp hw => ?_, fun hp hw => ?_⟩
  · obtain ⟨x, hx⟩ := Option.isSome_iff_exists.1 hp
    rw [Monitor.pendingAfter, hx]
    rfl
  · rw [Monitor.pendingAfter, hp, Monitor.raisedAt, hw]
    rfl
  · simp only [← occurrenceAt_told]
    rw [Monitor.pendingAfter, hp, Monitor.raisedAt, hw]
    rfl

end

/-! ### Lines and flags through the boundary's other work -/

/-- Every pending flag that is set stays set. -/
def FlagsKept (s t : State) : Prop :=
  ∀ (n : Fin 8) (id : Fin 54), s.screens[n].mon.pending[id].isSome = true → t.screens[n].mon.pending[id].isSome = true

theorem FlagsKept.refl (s : State) : FlagsKept s s := fun _ _ h => h

theorem FlagsKept.trans (s t u : State) (h : FlagsKept s t) (k : FlagsKept t u) : FlagsKept s u :=
  fun n id hp => k n id (h n id hp)

/-- The contact lines stay, and every pending flag that is set stays set. -/
structure LinesAndFlags (s t : State) : Prop where
  lines : t.lines = s.lines
  flags : FlagsKept s t

theorem LinesAndFlags.refl (s : State) : LinesAndFlags s s := ⟨rfl, .refl s⟩

/-- From its last part back: the form that elaborates well. -/
theorem LinesAndFlags.after {s t u : State} (k : LinesAndFlags t u) (h : LinesAndFlags s t) : LinesAndFlags s u :=
  ⟨k.lines.trans h.lines, .trans _ _ _ h.flags k.flags⟩

theorem linesAndFlags_forEach {α : Type} {f : α → State → State} (h : ∀ a s, LinesAndFlags s (f a s)) (items : List α) (s : State) :
    LinesAndFlags s (forEach items f s) := forEach_keeps .refl (fun _ _ _ h k => k.after h) f h items s

theorem linesAndFlags_forScreens {f : Fin 8 → State → State} (h : ∀ n s, LinesAndFlags s (f n s)) (s : State) :
    LinesAndFlags s (forScreens f s) := linesAndFlags_forEach h _ s

theorem linesAndFlags_forPorts {f : Fin 12 → State → State} (h : ∀ p s, LinesAndFlags s (f p s)) (s : State) :
    LinesAndFlags s (forPorts f s) := linesAndFlags_forEach h _ s

theorem linesAndFlags_of_same {s t : State} (hlines : t.lines = s.lines) (hscreens : t.screens = s.screens) : LinesAndFlags s t :=
  ⟨hlines, fun _ _ hp => by rw [hscreens]; exact hp⟩

theorem linesAndFlags_modScreen {s : State} (n : Fin 8) {f : Screen → Screen}
    (h : ∀ id : Fin 54, s.screens[n].mon.pending[id].isSome = true → (f s.screens[n]).mon.pending[id].isSome = true) :
    LinesAndFlags s (s.modScreen n f) := by
  refine ⟨rfl, fun m id => ?_⟩
  simp only [Fin.getElem_fin, State.modScreen_get]
  split
  · next hm => subst hm; exact h id
  · exact fun hp => hp

theorem linesAndFlags_modPort (s : State) (p : Fin 12) (f : Port → Port) : LinesAndFlags s (s.modPort p f) :=
  linesAndFlags_of_same rfl rfl

theorem linesAndFlags_modArb (s : State) (p : Fin 12) (f : Arbiter → Arbiter) : LinesAndFlags s (s.modArb p f) :=
  linesAndFlags_of_same rfl rfl

theorem linesAndFlags_messageSent (p : Fin 12) (s : State) : LinesAndFlags s (s.messageSent p) := by
  unfold State.messageSent State.freeChannel
  split
  · next m _ =>
    split
    · refine .after ?_ (linesAndFlags_modArb s p fun a => { a with channel := none })
      cases m.owner with
      | resp =>
        simp only
        split <;> exact linesAndFlags_of_same rfl rfl
      | screen n => exact linesAndFlags_modScreen n fun _ hp => hp
    · exact .refl s
  · exact .refl s

theorem linesAndFlags_endCrossfade (n : Fin 8) (s : State) : LinesAndFlags s (s.endCrossfade n) := by
  unfold State.endCrossfade
  split
  · exact linesAndFlags_modScreen n fun _ hp => hp
  · exact .refl s

theorem linesAndFlags_choose (n : Fin 8) (s : State) : LinesAndFlags s (s.choose n) := by
  unfold State.choose
  simp only
  split
  · next src level _ _ _ =>
    refine linesAndFlags_modScreen n fun id hp => ?_
    cases src with
    | mark cue => exact hp
    | alarm i =>
      simp only [Monitor.noticed, Fin.getElem_fin, Vector.getElem_set]
      split
      · rfl
      · exact hp
  · exact .refl s

/-- With no reset pending, what is due before a boundary is sent messages, ended crossfades and choices of notice. -/
theorem settleDue_eq {s : State} (hr : s.resetPending = none) :
    s.settleDue = forScreens State.choose (forScreens State.endCrossfade (forPorts State.messageSent s)) := by
  have hsent : DueTaken s (forPorts State.messageSent s) := forEach_keeps .refl .trans _ dueTaken_messageSent _ s
  simp [State.settleDue, State.takeDueReset, hsent.reset hr]

theorem linesAndFlags_settleDue {s : State} (hr : s.resetPending = none) : LinesAndFlags s s.settleDue := by
  rw [settleDue_eq hr]
  exact ((linesAndFlags_forScreens linesAndFlags_choose _).after (linesAndFlags_forScreens linesAndFlags_endCrossfade _)).after
    (linesAndFlags_forPorts linesAndFlags_messageSent s)

theorem linesAndFlags_unlessTaken {s : State} {x : Share} {f : State → State} (h : LinesAndFlags s (f s)) :
    LinesAndFlags s (s.unlessTaken x f) := by
  unfold State.unlessTaken
  split
  · exact .refl s
  · exact h

/-- A screen hears of a loss in its context alone (R50). -/
theorem linesAndFlags_hearLoss (p : Fin 12) (n : Fin 8) (s : State) : LinesAndFlags s (s.hearAnnouncement p .lost n) := by
  simp only [State.hearAnnouncement]
  split
  · exact linesAndFlags_modScreen n fun _ hp => hp
  · exact .refl s

theorem linesAndFlags_tickHoldover (p : Fin 12) (s : State) : LinesAndFlags s (s.tickHoldover p) := by
  unfold State.tickHoldover State.loseHoldover State.announce
  split
  · split
    · exact (linesAndFlags_forScreens (linesAndFlags_hearLoss p) _).after (linesAndFlags_modPort s p _)
    · exact linesAndFlags_modPort s p _
  · exact .refl s

theorem linesAndFlags_tickAssembly (counter : Long) (p : Fin 12) (s : State) : LinesAndFlags s (s.tickAssembly counter p) := by
  unfold State.tickAssembly State.timeoutMessage State.discardMessage State.offerError State.count
  split
  · split
    · split <;> exact linesAndFlags_of_same rfl rfl
    · exact .refl s
  · exact .refl s

theorem linesAndFlags_tickPort (counter : Long) (p : Fin 12) (s : State) : LinesAndFlags s (s.tickPort counter p) := by
  unfold State.tickPort
  exact ((linesAndFlags_unlessTaken (linesAndFlags_tickAssembly counter p _)).after
    (linesAndFlags_unlessTaken (linesAndFlags_modPort _ p _))).after (linesAndFlags_unlessTaken (linesAndFlags_tickHoldover p s))

theorem linesAndFlags_expireOne (counter : Long) (p : Fin 12) (s : State) : LinesAndFlags s (s.expireOne counter p) := by
  unfold State.expireOne
  split
  · split
    · simp only
      split <;> exact linesAndFlags_of_same rfl rfl
    · exact .refl s
  · exact .refl s

theorem linesAndFlags_tickArbiter (p : Fin 12) (s : State) : LinesAndFlags s (s.tickArbiter p) := by
  unfold State.tickArbiter
  split <;> exact linesAndFlags_modArb s p _

theorem linesAndFlags_tickLink (n : Fin 8) (s : State) : LinesAndFlags s (s.tickLink n) := by
  unfold State.tickLink
  exact (linesAndFlags_modScreen n fun _ hp => hp).after (linesAndFlags_unlessTaken (linesAndFlags_modScreen n fun _ hp => hp))

theorem linesAndFlags_tickLinks (s : State) : LinesAndFlags s s.tickLinks := by
  have hports := linesAndFlags_forPorts (linesAndFlags_tickPort s.blockCounter) s
  have hqueues := linesAndFlags_forPorts (f := State.expireResponses s.blockCounter)
    fun p t => linesAndFlags_forEach (fun _ u => linesAndFlags_expireOne s.blockCounter p u) _ t
  have harbiters (t : State) : LinesAndFlags t t.tickArbiters :=
    linesAndFlags_forPorts (fun p u => linesAndFlags_unlessTaken (linesAndFlags_tickArbiter p u)) t
  unfold State.tickLinks
  exact (((linesAndFlags_forScreens linesAndFlags_tickLink _).after (harbiters _)).after (hqueues _)).after hports

theorem linesAndFlags_settleScreen (n : Fin 8) (s : State) : LinesAndFlags s (s.settleScreen n) := by
  unfold State.settleScreen
  simp only
  split
  · exact (linesAndFlags_modScreen n fun _ hp => hp).after (linesAndFlags_modScreen n fun _ hp => hp)
  · exact linesAndFlags_modScreen n fun _ hp => hp

theorem linesAndFlags_settleDecoder (n : Fin 8) (s : State) : LinesAndFlags s (s.settleDecoder n) := by
  unfold State.settleDecoder
  exact linesAndFlags_modScreen n fun _ hp => hp

theorem linesAndFlags_tickEngine (n : Fin 8) (s : State) : LinesAndFlags s (s.tickEngine n) := by
  unfold State.tickEngine
  exact linesAndFlags_modScreen n fun _ hp => hp

theorem linesAndFlags_tickScreens (s : State) : LinesAndFlags s s.tickScreens := by
  unfold State.tickScreens
  exact ((linesAndFlags_forScreens linesAndFlags_tickEngine _).after (linesAndFlags_forScreens linesAndFlags_settleDecoder _)).after
    (linesAndFlags_forScreens linesAndFlags_settleScreen s)

theorem linesAndFlags_endQuiet (counter : Long) (n : Fin 8) (s : State) : LinesAndFlags s (s.endQuiet counter n) := by
  unfold State.endQuiet
  split
  · exact linesAndFlags_modScreen n fun _ hp => hp
  · exact .refl s

/-! ### The lines and the flags after a boundary -/

/-- A boundary's work before the meter and alarm units, as one state. -/
def State.unitsDue (s : State) : State := s.settleDue.openBlock.tickLinks.tickScreens.tickTimers

theorem unitsDue_taken {s : State} (hr : s.resetPending = none) (ht : s.taken = []) : s.unitsDue.taken = [] := by
  have hdue := (dueTaken_settleDue hr).parts.taken.trans ht
  unfold State.unitsDue
  generalize s.settleDue = d at hdue ⊢
  obtain ⟨-, -, hlinks, -⟩ := tickLinks_screens (s := d.openBlock) hdue
  generalize d.openBlock.tickLinks = u at hlinks ⊢
  have hscreens := (tickScreens_screens hlinks).1.taken.trans hlinks
  exact (tickTimers_screens hscreens).1.taken.trans hscreens

/-- Before the units' share a boundary ends pulses and keeps every flag that is set (R157). -/
theorem unitsDue_linesAndFlags {s : State} (hr : s.resetPending = none) :
    (∃ counter, ∀ l : Fin 16, s.unitsDue.lines[l] = s.lines[l].endPulse counter) ∧ FlagsKept s s.unitsDue := by
  have hdue := linesAndFlags_settleDue hr
  unfold State.unitsDue
  generalize s.settleDue = d at hdue ⊢
  have hopened : LinesAndFlags d d.openBlock := linesAndFlags_of_same rfl rfl
  have hkept := (((linesAndFlags_tickScreens _).after (linesAndFlags_tickLinks _)).after hopened).after hdue
  generalize d.openBlock.tickLinks.tickScreens = t at hkept ⊢
  have hquiet := (linesAndFlags_forScreens (linesAndFlags_endQuiet t.blockCounter) t).after hkept
  unfold State.tickTimers State.tickLines
  generalize forScreens (State.endQuiet t.blockCounter) t = q at hquiet ⊢
  refine ⟨⟨t.blockCounter, fun l => ?_⟩, hquiet.flags⟩
  simp [hquiet.lines]

/-- A line that another screen owns, or none, ignores a summary (R158). -/
theorem followSummary_other {n : Fin 8} {summary : Option Nat} {l : Line} (h : l.owner ≠ some n) :
    l.followSummary n summary = l := if_neg fun hl => h hl.2

theorem followSummary_owner (n : Fin 8) (summary : Option Nat) (l : Line) : (l.followSummary n summary).owner = l.owner := by
  unfold Line.followSummary
  split <;> rfl

/-- The units' shares in turn: a line follows the summary of its owner's unit, where that is among them (R129, R158). -/
theorem forEach_tickMonitor_line (l : Fin 16) (items : List (Fin 8)) (hd : items.Nodup) (s : State) (ht : s.taken = []) :
    let t := forEach items State.tickMonitor s
    (∀ n ∈ items, s.lines[l].owner = some n → t.lines[l] = s.lines[l].followSummary n t.screens[n].mon.summary) ∧
      ((∀ n ∈ items, s.lines[l].owner ≠ some n) → t.lines[l] = s.lines[l]) := by
  induction items generalizing s with
  | nil => exact ⟨fun n hn => absurd hn List.not_mem_nil, fun _ => rfl⟩
  | cons a items ih =>
    obtain ⟨ha, hrest⟩ := List.nodup_cons.1 hd
    have hfirst : (s.tickMonitor a).lines[l] = s.lines[l].followSummary a (s.tickMonitor a).screens[a].mon.summary :=
      alarmEvent_line s a _ l
    have hpassed (h : s.lines[l].owner ≠ some a) : (s.tickMonitor a).lines[l] = s.lines[l] :=
      hfirst.trans (followSummary_other h)
    have howner : (s.tickMonitor a).lines[l].owner = s.lines[l].owner := by rw [hfirst, followSummary_owner]
    obtain ⟨hin, hout⟩ := ih hrest (s.tickMonitor a) ht
    rw [howner] at hin hout
    refine ⟨fun n hn hx => ?_, fun h => ?_⟩
    · rcases List.mem_cons.1 hn with rfl | hn
      · have hlater : (forEach items State.tickMonitor (s.tickMonitor n)).screens[n] = (s.tickMonitor n).screens[n] :=
          ((onEach_forEach onEach_tickMonitor items hrest (s.tickMonitor n) ht).2 n).trans (if_neg ha)
        have hstays := hout fun m hm hxm => ha (Option.some.inj (hx.symm.trans hxm) ▸ hm)
        exact hstays.trans (hfirst.trans (by rw [← hlater]; rfl))
      · have hne : n ≠ a := fun he => ha (he ▸ hn)
        refine (hin n hn hx).trans ?_
        rw [hpassed fun hxa => hne (Option.some.inj (hx.symm.trans hxa))]
        rfl
    · exact (hout fun n hn => h n (List.mem_cons_of_mem _ hn)).trans (hpassed (h a List.mem_cons_self))

theorem boundary_eq (s : State) : s.boundary = { forScreens State.tickMonitor s.unitsDue with taken := [] } := rfl

/-- An ALARM-mode line follows its owner's summary through a boundary, and stays where it has no owner (R129, R158). -/
theorem boundary_line {s : State} (hr : s.resetPending = none) (ht : s.taken = []) (l : Fin 16) (hmode : s.lines[l].mode = .alarm)
    (hpulse : s.lines[l].pulseEnd = none) :
    (∀ n, s.lines[l].owner = some n → s.boundary.lines[l] =
      { s.lines[l] with closed := summaryCloses s.boundary.screens[n].mon.summary s.lines[l].threshold }) ∧
    (s.lines[l].owner = none → s.boundary.lines[l] = s.lines[l]) := by
  obtain ⟨⟨counter, hended⟩, -⟩ := unitsDue_linesAndFlags hr
  have hbefore : s.unitsDue.lines[l] = s.lines[l] := by
    rw [hended, Line.endPulse, hpulse]
    rfl
  obtain ⟨hin, hout⟩ := forEach_tickMonitor_line l _ (List.nodup_finRange 8) _ (unitsDue_taken hr ht)
  rw [hbefore] at hin hout
  rw [boundary_eq]
  generalize s.unitsDue = u at hin hout ⊢
  refine ⟨fun n hn => ?_, fun hn => hout fun m _ hm => ?_⟩
  · exact (hin n (List.mem_finRange n) hn).trans (if_pos ⟨hmode, hn⟩)
  · rw [hn] at hm
    cases hm

/-- A unit's share of a boundary keeps every flag that is set (R123). -/
theorem flagsKept_tickMonitor (n : Fin 8) (s : State) : FlagsKept s (s.tickMonitor n) := by
  intro m id hp
  by_cases hm : m = n
  · subst hm
    rw [State.tickMonitor, alarmEvent_mon, Monitor.summarise_pending, boundary_pending]
    exact (pendingAfter_cases _ _ id).1 (by rwa [takeHanded_pending])
  · rw [State.tickMonitor, alarmEvent_other hm]
    exact hp

theorem flagsKept_boundary {s : State} (hr : s.resetPending = none) : FlagsKept s s.boundary := by
  obtain ⟨-, hkept⟩ := unitsDue_linesAndFlags hr
  rw [boundary_eq]
  generalize s.unitsDue = u at hkept ⊢
  have hunits : FlagsKept u (forScreens State.tickMonitor u) := forEach_keeps .refl .trans _ flagsKept_tickMonitor _ u
  exact .trans _ _ _ hkept hunits

/-! ### The statement -/

section
variable {s t : State} {n : Fin 8} {w : Screen} {m : Context} {switched : Bool}

/-- The class table stays through a boundary. -/
theorem BoundaryParts.table (h : BoundaryParts s t n w m switched) : t.screens[n].mon.table = s.screens[n].mon.table := by
  rw [h.mon, boundary_rest, Monitor.takeHanded, h.due.mon]

/-- What a boundary leaves of a class record (R114). -/
theorem BoundaryParts.classRecord (h : BoundaryParts s t n w m switched) (id : Fin 54) :
    t.screens[n].mon.record id = s.screens[n].mon.record id := by
  simp only [Monitor.record, h.table]

/-- The condition of an alarm id at a boundary, by the level just formed and by what the other blocks hand over (R111, R112). -/
theorem BoundaryParts.condition (h : BoundaryParts s t n w m switched) (id : Fin 54) :
    let y := t.screens[n]
    (w.mon.takeHanded (t.handing y)).condition (t.handing y) id = true ↔
      (∃ c : Fin 16, id.val = 16 + c.val ∧
        ∃ v, (y.mon.record ⟨16 + c.val, by omega⟩).threshold = some v ∧ v ≤ y.mon.meters[c].level) ∨
      (∃ c : Fin 16, id.val = 32 + c.val ∧ y.dec.map[c].expected = true ∧
        ∃ v, (y.mon.record ⟨32 + c.val, by omega⟩).threshold = some v ∧ y.mon.meters[c].level < v) ∨
      (id = 48 ∧ ∃ q, y.ctx.primary = some q ∧ t.ports[q].state = .lost) ∨
      (id = 50 ∧ ∃ k : Fin 16, y.dec.map[k].role.isSome = true ∧ y.link.presented[k] ≠ .ok) ∨
      (id = 51 ∧ y.link.link ≠ .up) ∨ (id = 53 ∧ y.ctx.formatCond = true) := by
  intro y
  obtain ⟨hsource, hamp, hlink⟩ := handing_conditions t y
  have hrecord (i : Fin 54) : y.mon.record i = (w.mon.takeHanded (t.handing y)).record i := by
    rw [show y.mon = _ from h.mon, boundary_record, takeHanded_record]
  have hmeters : y.mon.meters = (w.mon.takeHanded (t.handing y)).meters := by
    rw [show y.mon = _ from h.mon, boundary_rest]
  have hexpected (c : Fin 16) : (t.handing y).expected[c] = y.dec.map[c].expected := by simp [State.handing]
  have hformat : (t.handing y).format = y.ctx.formatCond := rfl
  simp only [condition_iff, hsource, hamp, hlink, hformat, hexpected, hrecord, hmeters]

/-- A watched alarm takes the occurrence that its condition gives and then its boundary step; an entry into RAISED sets its
flag (R111, R112, R116 to R118, R123). -/
theorem BoundaryParts.watched (h : BoundaryParts s t n w m switched) {id : Fin 54} {holds : Prop}
    (hcond : (w.mon.takeHanded (t.handing t.screens[n])).condition (t.handing t.screens[n]) id = true ↔ holds)
    (hw : Watched t.screens[n].mon id) :
    let a := s.screens[n].mon.alarms[id].resumed
    let r := s.screens[n].mon.record id
    ∃ b, (holds → AtOccurrence r a b) ∧ (¬holds → b = a) ∧ AtBoundaryStep r b t.screens[n].mon.alarms[id] ∧
      (s.screens[n].mon.pending[id] = none → t.screens[n].mon.pending[id] =
        if b.state = .raised ∧ (a.state = .clear ∨ a.state = .qualifying) then some false else none) := by
  have halarms : w.mon.alarms = s.screens[n].mon.alarms := by rw [h.due.mon]
  have hpending := h.due.pending id
  have hrecord : w.mon.record id = s.screens[n].mon.record id := by rw [← h.classRecord, h.mon, boundary_record]
  rw [h.mon] at hw ⊢
  generalize t.handing t.screens[n] = handed at hw hcond ⊢
  rw [← watches_iff, boundary_watches] at hw
  obtain ⟨hoccurs, hstays⟩ := occurrenceAt_cases handed (w.mon.takeHanded handed) id
  obtain ⟨-, -, hflag⟩ := pendingAfter_cases handed (w.mon.takeHanded handed) id
  rw [takeHanded_alarms, halarms] at hoccurs hstays hflag
  rw [takeHanded_record, hrecord] at hoccurs
  intro a r
  refine ⟨((w.mon.takeHanded handed).occurrenceAt handed id).1, fun hh => hoccurs (hcond.2 hh),
    fun hh => hstays fun hc => hh (hcond.1 hc), ?_, fun hp => ?_⟩
  · rw [Monitor.summarise_alarms, boundary_alarms, Monitor.alarmAfter, if_pos hw, takeHanded_record, hrecord]
    exact boundaryStep_atBoundaryStep _ _
  · rw [Monitor.summarise_pending, boundary_pending]
    exact hflag ((congrArg (·[id]) (takeHanded_pending _ _)).trans (hpending hp)) hw

/-- An alarm that is not watched makes no id pending (R118). -/
theorem BoundaryParts.unwatched_pending (h : BoundaryParts s t n w m switched) {id : Fin 54} (hw : ¬Watched t.screens[n].mon id)
    (hp : s.screens[n].mon.pending[id] = none) : t.screens[n].mon.pending[id] = none := by
  have hpending := h.due.pending id hp
  rw [h.mon] at hw ⊢
  generalize t.handing t.screens[n] = handed at hw ⊢
  rw [← watches_iff, boundary_watches, Bool.not_eq_true] at hw
  obtain ⟨-, hnone, -⟩ := pendingAfter_cases handed (w.mon.takeHanded handed) id
  rw [Monitor.summarise_pending, boundary_pending]
  exact hnone ((congrArg (·[id]) (takeHanded_pending _ _)).trans hpending) hw

end

/-- Settles O51: each clause is the lemma on its part of the unit, and the lines are `boundary_line`. -/
theorem boundaryRunsTheAlarmInstances : Obligations.BoundaryRunsTheAlarmInstances := by
  intro s hp hr ht
  have hparts := boundary_parts hr ht
  have hflags := flagsKept_boundary hr
  have hlines := boundary_line hr ht
  refine ⟨s.boundary, live_on hp _, ?_⟩
  generalize s.boundary = t at hparts hflags hlines ⊢
  refine ⟨fun n => ?_, hlines⟩
  obtain ⟨w, m, switched, h⟩ := hparts n
  intro _ y loud still holds
  refine ⟨h.table, ?_, fun id => ⟨hflags n id, fun hw => ⟨h.unwatched hw, h.unwatched_pending hw⟩, h.watched (h.condition id)⟩⟩
  rw [h.mon]
  exact summarise_right _

end Sys2Proof.Machine
end

-- Proofs/CueRequests: the requests on a cue list (O29 to O31)
section
/-! A load, a deletion, a re-arming and a firing are each said as one equation about the screen's list and the free stack, and the
action that a firing applies as the effect it has at its owning block (R133, R134, R142 to R153). -/

namespace Sys2Proof.Machine

/-! ### CUE-LOAD -/

theorem driveOk_iff (d : Drive) : driveOk d = true ↔ ¬∃ ms, d = .pulse ms ∧ (ms = 0 ∨ 10001 ≤ ms) := by
  cases d with
  | closeLine | openLine => simp [driveOk]
  | pulse ms => simp [driveOk]; omega

/-- The model's check of an action's operands is that they are in range (R149). -/
theorem actionOk_iff (a : CueAction) : actionOk a = true ↔ ActionInRange a := by
  cases a with
  | contact line d => cases d <;> simp [actionOk, driveOk, ActionInRange, Nat.lt_succ_iff]
  | format tag => cases tag <;> simp [actionOk, ActionInRange]
  | quiet | mark => simp [actionOk, ActionInRange]
  | fade | mute | eqBank | source => simp [actionOk, ActionInRange]

theorem storedAction_eq (a : CueAction) : storedAction a = clampedAction a := by cases a <;> rfl

/-- The model's check that a cue is already due at its load (R150). -/
theorem alreadyDue_iff (x : Screen) (program trigger : Long) :
    x.alreadyDue program trigger = true ↔ AlreadyDue x program trigger := by
  unfold Screen.alreadyDue AlreadyDue
  split
  · next n p hs hn hp => simp [hs, hn, hp]
  · next h => exact iff_of_false Bool.false_ne_true fun ⟨hs, n, p, hn, hp, _⟩ => h n p hs hn hp

/-- The cue record that a load writes, in the terms of the statement (R150). -/
theorem cueOf_eq (x : Screen) (record : Nat) (k : CueOperand) :
    let c := x.cueOf record k
    let due := AlreadyDue x k.program k.trigger
    (due → k.fireIfDue = false → c.state = .passed) ∧ (¬(due ∧ k.fireIfDue = false) → c.state = .armed) ∧
    (c.loadDue = true ↔ due ∧ k.fireIfDue = true) ∧
    c = { record, id := k.id, program := k.program, trigger := k.trigger, action := clampedAction k.action
          catchUp := k.catchUp, state := c.state, outcome := none, loadDue := c.loadDue } := by
  simp only [Screen.cueOf, ← alreadyDue_iff, storedAction_eq, Bool.and_eq_true, and_true, iff_self]
  exact ⟨fun hd hf => if_pos ⟨hd, hf⟩, fun h => if_neg h⟩

theorem removeCue_eq_filter (id : Nat) (l : List Cue) : removeCue id l = l.filter (·.id ≠ id) := by
  simp only [removeCue, ne_eq, decide_not]
  rfl

/-- A list without a cue of the id is what its removal leaves. -/
theorem removeCue_absent {id : Nat} {l : List Cue} (h : ∀ c ∈ l, c.id ≠ id) : removeCue id l = l := by
  simpa [removeCue] using h

/-- A cue placed in place of any of its id: the list stays in order and holds it with the others (R134, R149). -/
theorem placeCue_replaces {l : List Cue} (h : CueListSafe l) (c : Cue) :
    CueListSafe (placeCue c (removeCue c.id l)) ∧ (placeCue c (removeCue c.id l)).Perm (c :: l.filter (·.id ≠ c.id)) :=
  ⟨cueListSafe_placeCue (cueListSafe_removeCue h c.id) fun _ hd => (mem_removeCue.1 hd).2,
    removeCue_eq_filter c.id l ▸ placeCue_perm c _⟩

section
variable {s : State} {n : Fin 8} {k : CueOperand}

/-- A new id takes the top of the free stack (R133, R149). -/
theorem loadCue_new {record : Nat} {rest : List Nat} (hnew : ∀ c ∈ s.screens[n].cues, c.id ≠ k.id)
    (hfree : s.freeStack = record :: rest) : s.loadCue n k = some ({ s with freeStack := rest }.modCues n fun _ =>
      placeCue (s.screens[n].cueOf record k) (removeCue k.id s.screens[n].cues)) := by
  simp only [State.loadCue, findCue_eq_none.2 hnew, hfree, removeCue_absent hnew]
  exact congrArg some (modScreen_congr rfl)

/-- With the free stack empty a new id has no place (R149). -/
theorem loadCue_full (hnew : ∀ c ∈ s.screens[n].cues, c.id ≠ k.id) (hfree : s.freeStack = []) : s.loadCue n k = none := by
  simp only [State.loadCue, findCue_eq_none.2 hnew, hfree]

/-- An id already in the list keeps its record (R149). -/
theorem loadCue_listed (hids : (s.screens[n].cues.map (·.id)).Nodup) {c : Cue} (hc : c ∈ s.screens[n].cues) (hid : c.id = k.id) :
    s.loadCue n k = some (s.modCues n fun _ =>
      placeCue (s.screens[n].cueOf c.record k) (removeCue k.id s.screens[n].cues)) := by
  simp only [State.loadCue, hid ▸ findCue_mem hids hc]
  exact congrArg some (modScreen_congr rfl)

variable {h : ReqHead} (hn : h.screen.toNat = n.val)
include hn

theorem answerCueLoad_refused (hbad : k.id = 0 ∨ ¬ActionInRange k.action) : answerCueLoad h k s = .refuse .range := by
  rw [answerCueLoad, onScreen_at hn]
  exact if_neg fun ⟨hid, ha⟩ => hbad.elim hid fun hno => hno ((actionOk_iff _).1 ha)

theorem answerCueLoad_full (hid : k.id ≠ 0) (ha : ActionInRange k.action) (hl : s.loadCue n k = none) :
    answerCueLoad h k s = .refuse .full := by
  rw [answerCueLoad, onScreen_at hn, if_pos ⟨hid, (actionOk_iff _).2 ha⟩, hl]

theorem answerCueLoad_loaded (hid : k.id ≠ 0) (ha : ActionInRange k.action) {t : State} (hl : s.loadCue n k = some t) :
    answerCueLoad h k s = .done t [] := by
  rw [answerCueLoad, onScreen_at hn, if_pos ⟨hid, (actionOk_iff _).2 ha⟩, hl]

end

/-- Settles O29: `cueOf_eq` for the record, `placeCue_replaces` for the list and `loadCue`'s three cases for the pool. -/
theorem cueLoadPlacesTheCue : Obligations.CueLoadPlacesTheCue := by
  intro h k s
  refine under_screen (answerCueLoad h k) rfl rfl rfl rfl fun n hn hx => ?_
  intro x cue placed
  have hplaced {free : List Nat} {record : Nat} (hl : CueListSafe x.cues)
      (ha : answerCueLoad h k s = .done ({ s with freeStack := free }.modCues n fun _ =>
        placeCue (x.cueOf record k) (removeCue k.id x.cues)) []) : placed free record := by
    obtain ⟨hsafe, hperm⟩ := placeCue_replaces hl (x.cueOf record k)
    exact ⟨_, _, cueOf_eq x record k, hsafe, hperm, hx.trans (congrArg _ (outcome_done ha))⟩
  refine ⟨fun hbad => ?_, fun hid ha hnew hfree => ?_, fun hid ha hl => ⟨fun hnew record rest hfree => ?_, fun c hc hcid => ?_⟩⟩
  · exact hx.trans (congrArg _ (outcome_refuse (answerCueLoad_refused hn hbad)))
  · exact hx.trans (congrArg _ (outcome_refuse (answerCueLoad_full hn hid ha (loadCue_full hnew hfree))))
  · exact hplaced hl (answerCueLoad_loaded hn hid ha (loadCue_new hnew hfree))
  · exact hplaced hl (answerCueLoad_loaded hn hid ha (loadCue_listed hl.2 hc hcid))

/-! ### CUE-DELETE and CUE-REARM -/

theorem selectionOk_iff (which : CueSelection) : selectionOk which = true ↔ SelectionInRange which := by
  cases which <;> simp [selectionOk, SelectionInRange]

/-- The pool records that the removal of these ids in turn puts on the free stack, top first (R133, R151). -/
def deletedRecords : List Nat → List Cue → List Nat
  | [], _ => []
  | id :: ids, l => deletedRecords ids (removeCue id l) ++ (findCue id l).toList.map Cue.record

/-- Removing one id (R151). -/
theorem deleteCue_eq (s : State) (n : Fin 8) (id : Nat) : s.deleteCue n id =
    { s with freeStack := (findCue id s.screens[n].cues).toList.map Cue.record ++ s.freeStack }.modCues n (removeCue id) := by
  unfold State.deleteCue
  split
  · next hf => rw [hf]; rfl
  · next hf =>
    rw [hf]
    exact (modScreen_self (by rw [removeCue_absent (findCue_eq_none.1 hf)])).symm

/-- Removing several ids in turn (R151). -/
theorem forEach_deleteCue (n : Fin 8) (ids : List Nat) (s : State) : forEach ids (State.deleteCue n) s =
    { s with freeStack := deletedRecords ids s.screens[n].cues ++ s.freeStack }.modCues n
      fun l => l.filter fun c => decide (c.id ∉ ids) := by
  induction ids generalizing s with
  | nil => exact (modScreen_self (by simp)).symm
  | cons id ids ih =>
    have hcues : (s.deleteCue n id).screens[n].cues = removeCue id s.screens[n].cues := by simp [deleteCue_eq]
    refine (ih (s.deleteCue n id)).trans ?_
    rw [hcues, deleteCue_eq]
    simp [State.modScreen, deletedRecords, removeCue_eq_filter, List.filter_filter, Bool.and_comm]

/-- Of a list whose ids differ, the removed cues' records go on the free stack (R133, R151). -/
theorem deletedRecords_perm (ids : List Nat) {l : List Cue} (hl : CueListSafe l) :
    (deletedRecords ids l).Perm ((l.filter fun c => decide (c.id ∈ ids)).map (·.record)) := by
  induction ids generalizing l with
  | nil => simp [deletedRecords]
  | cons id ids ih =>
    have hrest : (removeCue id l).filter (fun c => decide (c.id ∈ id :: ids)) =
        (removeCue id l).filter fun c => decide (c.id ∈ ids) := by
      refine List.filter_congr fun c hc => ?_
      simp [(mem_removeCue.1 hc).2]
    have hlater := ih (cueListSafe_removeCue hl id)
    rw [deletedRecords]
    cases hf : findCue id l with
    | none =>
      rw [removeCue_absent (findCue_eq_none.1 hf)] at hrest hlater ⊢
      rw [hrest]
      simpa using hlater
    | some c =>
      have hid : c.id = id := by simpa using List.find?_some hf
      have hfound := (((removeCue_perm hl.2 hf).filter fun c => decide (c.id ∈ id :: ids)).map (·.record)).symm
      rw [List.filter_cons_of_pos (by simp [hid]), hrest] at hfound
      exact ((hlater.append_right _).trans (List.perm_append_singleton _ _)).trans hfound

/-- All of a list's cues are removed in list order (assumption log 18). -/
theorem deletedRecords_all {l : List Cue} (hids : (l.map (·.id)).Nodup) :
    deletedRecords (l.map (·.id)) l = (l.map (·.record)).reverse := by
  induction l with
  | nil => rfl
  | cons d ds ih =>
    obtain ⟨hd, hds⟩ := List.nodup_cons.1 hids
    have hremoved : removeCue d.id (d :: ds) = ds := by
      rw [← removeCue_absent (l := ds) fun e he hx => hd (List.mem_map.2 ⟨e, he, hx⟩)]
      simp [removeCue]
    simp [deletedRecords, hremoved, ih hds, findCue]

section
variable {h : ReqHead} {which : CueSelection} {s : State} {n : Fin 8} (hn : h.screen.toNat = n.val)
include hn

theorem answerCueDelete_refused (hbad : ¬SelectionInRange which) : answerCueDelete h which s = .refuse .range := by
  rw [answerCueDelete, onScreen_at hn]
  exact if_neg (mt (selectionOk_iff _).1 hbad)

/-- A deletion that is taken, with the cues and the records it leaves (R151). -/
theorem answerCueDelete_taken {left : List Cue} (hgood : SelectionInRange which)
    (hleft : (s.screens[n].cues.filter fun c => decide (c.id ∉ selectedIds s.screens[n] which)) = left) :
    answerCueDelete h which s = .done
      ({ s with freeStack := deletedRecords (selectedIds s.screens[n] which) s.screens[n].cues ++ s.freeStack }.modCues n
        fun _ => left) [BitVec.ofNat 16 (s.screens[n].cues.length - left.length)] := by
  have ht : s.deleteCues n which =
      { s with freeStack := deletedRecords (selectedIds s.screens[n] which) s.screens[n].cues ++ s.freeStack }.modCues n
        fun _ => left :=
    (forEach_deleteCue n _ s).trans (modScreen_congr (by rw [← hleft]))
  rw [answerCueDelete, onScreen_at hn, if_pos ((selectionOk_iff _).2 hgood), ht]
  simp [wordOf]

theorem answerCueRearm_refused (hbad : ¬SelectionInRange which) : answerCueRearm h which s = .refuse .range := by
  rw [answerCueRearm, onScreen_at hn]
  exact if_neg (mt (selectionOk_iff _).1 hbad)

/-- A re-arming that is taken (R153). -/
theorem answerCueRearm_taken (hgood : SelectionInRange which) : answerCueRearm h which s =
    .done (s.modCues n fun l => l.map fun c =>
      if Selects which c.id then { c with state := .armed, outcome := none, loadDue := false } else c) [] := by
  rw [answerCueRearm, onScreen_at hn, if_pos ((selectionOk_iff _).2 hgood)]
  refine congrArg (Answer.done · []) (modScreen_congr ?_)
  have hselects {c : Cue} (hc : c ∈ s.screens[n].cues) : c.id ∈ selectedIds s.screens[n] which ↔ Selects which c.id = true := by
    cases which with
    | ids ids => simp [selectedIds, Selects]
    | all => exact iff_of_true (List.mem_map_of_mem hc) rfl
  have hmap : (s.screens[n].cues.map fun c => if c.id ∈ selectedIds s.screens[n] which then c.rearm else c) = _ :=
    List.map_congr_left fun c hc => ite_congr (propext (hselects hc)) (fun _ => rfl) fun _ => rfl
  rw [hmap]
  rfl

end

/-- Settles O30: the ids are removed in turn (`forEach_deleteCue`), and a re-arming acts on each cue by itself. -/
theorem cueDeleteAndRearmActOnTheListedCues : Obligations.CueDeleteAndRearmActOnTheListedCues := by
  refine fun h which s => ⟨?_, ?_⟩
  · refine under_screen (answerCueDelete h which) rfl rfl rfl rfl fun n hn hx => ?_
    intro l goes
    refine ⟨fun hbad => ?_, fun hl hall => ?_, fun ids hl hids hgood => ⟨deletedRecords ids l, deletedRecords_perm ids hl, ?_⟩⟩
    · exact hx.trans (congrArg _ (outcome_refuse (answerCueDelete_refused hn hbad)))
    · subst hall
      have hnone : (l.filter fun c => decide (c.id ∉ l.map (·.id))) = [] :=
        List.filter_eq_nil_iff.2 fun c hc => by simpa using ⟨c, hc, rfl⟩
      have ha := answerCueDelete_taken (which := .all) (s := s) hn trivial hnone
      rw [selectedIds, deletedRecords_all hl.2] at ha
      exact hx.trans (congrArg _ (outcome_done ha))
    · subst hids
      exact hx.trans (congrArg _ (outcome_done (answerCueDelete_taken hn hgood rfl)))
  · refine under_screen (answerCueRearm h which) rfl rfl rfl rfl fun n hn hx => ⟨fun hbad => ?_, fun hgood => ?_⟩
    · exact hx.trans (congrArg _ (outcome_refuse (answerCueRearm_refused hn hbad)))
    · exact hx.trans (congrArg _ (outcome_done (answerCueRearm_taken hn hgood)))

/-! ### CUE-FIRE -/

/-- A line takes drives of the screen that owns it in CUE mode (R142, R160). -/
theorem drivenBy_iff (n : Fin 8) (l : Line) : l.drivenBy n = true ↔ l.owner = some n ∧ l.mode = .cue := by
  simp [Line.drivenBy]

/-- The model's check that an action is DECLINED is `Declines` (R142). -/
theorem declines_iff (s : State) (n : Fin 8) (a : CueAction) : s.declines n a = true ↔ Declines s n a := by
  cases a with
  | contact line d =>
    have hline (l : Fin 16) : (!s.lines[l].drivenBy n) = true ↔ s.lines[l].owner ≠ some n ∨ s.lines[l].mode ≠ .cue := by
      rw [Bool.not_eq_true', ← Bool.not_eq_true, drivenBy_iff, not_and_or]
    by_cases hl : line < 16
    · have hindex : index? 16 line = some ⟨line, hl⟩ := index?_val ⟨line, hl⟩
      simp only [State.declines, hindex, hline, Declines]
      exact ⟨fun h l hv => by obtain rfl : l = ⟨line, hl⟩ := Fin.ext hv; exact h, fun h => h _ rfl⟩
    · simp only [State.declines, index?, dif_neg hl, Declines, true_iff]
      exact fun l hv => absurd (hv ▸ l.isLt) hl
  | format tag => cases tag <;> simp [State.declines, Declines]
  | source role => cases role <;> simp [State.declines, Declines, Context.portOf]
  | quiet => simp [State.declines, Declines]
  | fade | mute | eqBank | mark => simp [State.declines, Declines]

/-- A drive changes its line as R157 says. -/
theorem drive_effect (s : State) (l : Fin 16) (d : Drive) : DriveEffect l d s (s.modLine l (Line.drive s.blockCounter d)) := by
  cases d <;> rfl

/-- A quiet interval's opening suppresses the quiet-suppressible classes (R121, R147). -/
theorem quietOpens_clearsAlarms {s : State} {n : Fin 8} {m : Monitor} (hm : s.screens[n].mon = m) :
    ClearsAlarms n (SuppressedBy { m with handedQuiet := true }) { m with handedQuiet := true } s (s.quietOpens n) :=
  alarmEvent_clearsAlarms (congrArg (fun m : Monitor => { m with handedQuiet := true }.clearSuppressed) hm) (suppressed_iff _)

/-- A QUIET closes the interval, moves its end or opens it (R147). -/
theorem takeQuiet_effect (s : State) (n : Fin 8) (d : Nat) : QuietEffect n d s (s.takeQuiet n d) := by
  refine ⟨fun hd => if_pos hd, fun hd hopen => ?_, fun hd hclosed => ?_⟩
  · exact (if_neg (Nat.ne_of_gt hd)).trans (if_pos hopen)
  · have hopens : s.takeQuiet n d = (s.setQuiet n (some (s.blockCounter + BitVec.ofNat 32 d))).quietOpens n :=
      (if_neg (Nat.ne_of_gt hd)).trans (if_neg (by rw [hclosed]; exact Bool.false_ne_true))
    rw [hopens]
    exact quietOpens_clearsAlarms (modScreen_mon rfl)

/-- A MARK joins the queue, in the place of the oldest where the queue is full (R128, R161). -/
theorem pushMark_effect (s : State) (n : Fin 8) (cue level : Nat) :
    MarkEffect n cue level s (s.modMon n (Monitor.pushMark { cue, level })) := by
  refine congrArg (State.modMon s n) (funext fun m => ?_)
  by_cases hm : m.marks.length < 8
  · simp only [hm, if_true]
    exact if_neg (Nat.not_le.2 hm)
  · simp only [hm, if_false]
    exact if_pos (Nat.not_lt.1 hm)

/-- An action that is not declined is applied at its owning block (R143 to R147). -/
theorem applyAction_effect {s : State} {n : Fin 8} (id : Nat) {a : CueAction} (h : ¬Declines s n a) :
    ActionEffect n id a s (s.applyAction n id a) := by
  cases a with
  | contact line d =>
    rintro l rfl
    rw [State.applyAction, index?_val]
    exact drive_effect s l d
  | fade t d => exact takeFade_effect s n t d
  | mute on => exact takeMute_effect s n on
  | eqBank k => exact select_effect s n k
  | format tag => rfl
  | source role => rfl
  | quiet d => exact takeQuiet_effect s n d
  | mark level => exact pushMark_effect s n id level

/-- A cue's change in place, by a proposition. -/
theorem updateCue_eq (id : Nat) (f : Cue → Cue) (l : List Cue) : updateCue id f l = l.map fun k => if k.id = id then f k else k := by
  simp [updateCue]

section
variable {h : ReqHead} {s : State} {n : Fin 8}

theorem answerCueFire_found (hn : h.screen.toNat = n.val) {id : Nat} (hid : id ≠ 0) {c : Cue}
    (hf : findCue id s.screens[n].cues = some c) :
    answerCueFire h id s = .done (s.fireCue n c) [outcomeWord (s.outcomeOf n c.action)] := by
  rw [answerCueFire, onScreen_at hn, if_neg hid, hf]

/-- A declined firing leaves the cue FIRED and no more (R142). -/
theorem fireCue_declined {c : Cue} (hd : Declines s n c.action) : s.outcomeOf n c.action = .declined ∧
    s.fireCue n c = s.modCues n fun l => l.map fun k =>
      if k.id = c.id then { k with state := .fired, outcome := some .declined, loadDue := false } else k := by
  have ho : s.outcomeOf n c.action = .declined := if_pos ((declines_iff s n c.action).2 hd)
  refine ⟨ho, ?_⟩
  rw [State.fireCue, ho, if_pos ((declines_iff s n c.action).2 hd)]
  exact modScreen_congr (by simp only [updateCue_eq])

/-- Any other firing applies the action first (R142). -/
theorem fireCue_applied {c : Cue} (hd : ¬Declines s n c.action) : s.outcomeOf n c.action = .applied ∧
    s.fireCue n c = (s.applyAction n c.id c.action).modCues n fun l => l.map fun k =>
      if k.id = c.id then { k with state := .fired, outcome := some .applied, loadDue := false } else k := by
  have ho : s.outcomeOf n c.action = .applied := if_neg (mt (declines_iff s n c.action).1 hd)
  refine ⟨ho, ?_⟩
  rw [State.fireCue, ho, if_neg (mt (declines_iff s n c.action).1 hd)]
  exact modScreen_congr (by simp only [updateCue_eq])

end

/-- Settles O31: the cue is found by its id, and its firing is one of the two `fireCue` equations. -/
theorem cueFireAppliesOrDeclines : Obligations.CueFireAppliesOrDeclines := by
  intro h id s
  refine under_screen (answerCueFire h id) rfl rfl rfl rfl fun n hn hx => ?_
  intro fired
  refine ⟨fun h0 => ?_, fun hid hno => ?_, fun hid hl c hc hcid => ?_⟩
  · refine hx.trans (congrArg _ (outcome_refuse ?_))
    rw [answerCueFire, onScreen_at hn, if_pos h0]
  · refine hx.trans (congrArg _ (outcome_refuse ?_))
    rw [answerCueFire, onScreen_at hn, if_neg hid, findCue_eq_none.2 hno]
  · subst hcid
    have hfires := hx.trans (congrArg _ (outcome_done (answerCueFire_found hn hid (findCue_mem hl.2 hc))))
    refine ⟨fun hd => ?_, fun hd => ⟨_, applyAction_effect c.id hd, ?_⟩⟩
    · obtain ⟨houtcome, hfire⟩ := fireCue_declined hd
      rw [hfires, houtcome, hfire]
      rfl
    · obtain ⟨houtcome, hfire⟩ := fireCue_applied hd
      rw [hfires, houtcome, hfire]
      rfl

end Sys2Proof.Machine
end

-- Proofs/ContactRequests: the requests on a contact line (O32) and the loss of power (O4)
section
/-! CONTACT-SET writes a line's record and CONTACT-DRIVE drives a line of the screen (R157 to R160). Without power every arm of the
dispatch leaves the state (R156, assumption log 3). -/

namespace Sys2Proof.Machine

/-! ### CONTACT-SET -/

/-- A request on a line of 16 or above is refused (R159, R160). -/
theorem onLine_outside {line : Nat} (h : 16 ≤ line) (f : Fin 16 → Answer) : onLine line f = .refuse .range := by
  simp [onLine, index?, Nat.not_lt.2 h]

/-- A request on any other reaches that line. -/
theorem onLine_at (l : Fin 16) (f : Fin 16 → Answer) : onLine l.val f = f l := by
  rw [onLine, index?_val]

theorem summaryCloses_iff (summary : Option Nat) (threshold : Nat) :
    summaryCloses summary threshold = true ↔ ∃ lv, summary = some lv ∧ lv ≤ threshold := by
  cases summary <;> simp [summaryCloses]

/-- The record that a CONTACT-SET leaves is CLOSED exactly where it is an ALARM-mode line that its owner's summary closes (R158,
R159). -/
theorem lineOf_closed (s : State) (owner : Option (Fin 8)) (mode : LineMode) (threshold : Nat) :
    (s.lineOf owner mode threshold).closed = true ↔
      mode = .alarm ∧ ∃ n lv, owner = some n ∧ s.screens[n].mon.summary = some lv ∧ lv ≤ threshold := by
  cases mode with
  | cue => simp [State.lineOf]
  | alarm =>
    cases owner with
    | none => simp [State.lineOf]
    | some n => simp [State.lineOf, summaryCloses_iff]

section
variable {line threshold : Nat} {owner : Option Nat} {mode : LineMode} {s : State}

theorem answerContactSet_refused (hbad : 16 ≤ line ∨ (∃ k, owner = some k ∧ 8 ≤ k) ∨ 4 ≤ threshold) :
    answerContactSet line owner mode threshold s = .refuse .range := by
  rcases Nat.lt_or_ge line 16 with hline | hline
  · rw [answerContactSet, onLine_at ⟨line, hline⟩]
    refine if_neg fun ⟨howner, hthreshold⟩ => ?_
    rw [optBelow_iff] at howner
    rcases hbad with hbad | ⟨k, hk, hk8⟩ | hbad
    · omega
    · exact absurd (howner k hk) (Nat.not_lt.2 hk8)
    · omega
  · exact onLine_outside hline _

theorem answerContactSet_written (l : Fin 16) (o : Option (Fin 8)) (hthreshold : threshold ≤ 3) :
    answerContactSet l.val (o.map (·.val)) mode threshold s = .done (s.modLine l fun _ => s.lineOf o mode threshold) [] := by
  have hbelow : optBelow 8 (o.map (·.val)) = true := by cases o <;> simp [optBelow]
  have howner : (o.map (·.val)).bind (index? 8) = o := by
    cases o with
    | none => rfl
    | some n => exact index?_val n
  rw [answerContactSet, onLine_at, if_pos ⟨hbelow, hthreshold⟩, howner]

end

/-! ### CONTACT-DRIVE -/

section
variable {h : ReqHead} {d : Drive} {s : State} {n : Fin 8} (hn : h.screen.toNat = n.val)
include hn

theorem answerContactDrive_refused {line : Nat} (hbad : 16 ≤ line ∨ ∃ ms, d = .pulse ms ∧ (ms = 0 ∨ 10001 ≤ ms)) :
    answerContactDrive h line d s = .refuse .range := by
  rw [answerContactDrive, onScreen_at hn]
  rcases Nat.lt_or_ge line 16 with hline | hline
  · rw [onLine_at ⟨line, hline⟩]
    exact if_neg fun hok => hbad.elim (Nat.not_le.2 hline) ((driveOk_iff d).1 hok)
  · exact onLine_outside hline _

/-- A drive in range is taken by a line of the screen in CUE mode (R160). -/
theorem answerContactDrive_inRange (l : Fin 16) (hd : ¬∃ ms, d = .pulse ms ∧ (ms = 0 ∨ 10001 ≤ ms)) :
    answerContactDrive h l.val d s =
      if s.lines[l].drivenBy n then .done (s.modLine l (Line.drive s.blockCounter d)) [] else .refuse .state := by
  rw [answerContactDrive, onScreen_at hn, onLine_at, if_pos ((driveOk_iff d).2 hd)]

end

/-- Settles O32: `lineOf_closed` for the record that is written, `drive_effect` for the drive. -/
theorem contactRequestsSetAndDriveTheLine : Obligations.ContactRequestsSetAndDriveTheLine := by
  refine fun h line s => ⟨fun owner mode threshold => ?_, fun d => ?_⟩
  · refine under_part (answerContactSet line owner mode threshold) rfl rfl rfl (.inl rfl) fun _ hx =>
      ⟨fun hbad => ?_, fun l o closed hline howner hthreshold hclosed => ?_⟩
    · exact hx.trans (congrArg _ (outcome_refuse (answerContactSet_refused hbad)))
    · subst hline howner
      obtain rfl : (s.lineOf o mode threshold).closed = closed := Bool.eq_iff_iff.2 ((lineOf_closed ..).trans hclosed.symm)
      exact hx.trans (congrArg _ (outcome_done (answerContactSet_written l o hthreshold)))
  · refine under_screen (answerContactDrive h line d) rfl rfl rfl rfl fun n hn hx => ?_
    intro badPulse
    refine ⟨fun hbad => ?_, fun l hline hd => ?_⟩
    · exact hx.trans (congrArg _ (outcome_refuse (answerContactDrive_refused hn hbad)))
    · subst hline
      have hanswer := answerContactDrive_inRange (s := s) hn l hd
      refine ⟨fun hforeign => ?_, fun howner hmode => ⟨_, drive_effect s l d, ?_⟩⟩
      · have hno : ¬s.lines[l].drivenBy n = true := by rwa [drivenBy_iff, not_and_or]
        exact hx.trans (congrArg _ (outcome_refuse (hanswer.trans (if_neg hno))))
      · exact hx.trans (congrArg _ (outcome_done (hanswer.trans (if_pos ((drivenBy_iff n _).2 ⟨howner, hmode⟩)))))

/-! ### The loss of power -/

/-- Without power a command that is neither POWER_ON nor POWER_LOSS leaves the state (assumption log 3). -/
theorem exec_unpowered {s : State} (hs : s.powered = false) {c : Instr} (hon : ∀ straps, c ≠ .powerOn straps)
    (hloss : c ≠ .powerLoss) : exec c s = .next s := by
  cases c with
  | powerOn straps => exact absurd rfl (hon straps)
  | powerLoss => exact absurd rfl hloss
  | _ =>
    simp only [exec]
    exact live_off hs _

/-- Settles O4: the loss opens every relay and stops every port, and `exec_unpowered` says what follows. -/
theorem powerLossOpensEveryRelay : Obligations.PowerLossOpensEveryRelay :=
  ⟨fun s => ⟨s.losePower, rfl, rfl, fun _ => rfl, fun p => by simp [State.losePower, Port.dark],
    fun n => by simp [State.losePower, Screen.dark], rfl⟩, fun _ _ hs hon hloss => exec_unpowered hs hon hloss⟩

end Sys2Proof.Machine
end

-- Proofs/BoundaryForesight: what a boundary can make of an alarm, whatever timed commands have taken of it
section
/-! A timed command may have taken shares of the coming boundary ahead (assumption log 2). The shares concern the links alone: what
comes after the links' share acts as it does with none taken (`IgnoresTaken`), and the links' share can bring a port to LOST only
from LOST or from the end of its holdover, and leaves a screen port that is UP as it is. So the condition of an alarm holds at the
boundary only where `MayOccur` says that it may (`boundary_foreseen`). -/

namespace Sys2Proof.Machine

/-! ### Work that does not look at the shares taken -/

/-- The state with other shares taken. -/
def State.withTaken (s : State) (l : List Share) : State := { s with taken := l }

section
variable (t : State) (l : List Share)
theorem withTaken_ports : (t.withTaken l).ports = t.ports := rfl
theorem withTaken_loaded : (t.withTaken l).loaded = t.loaded := rfl
theorem withTaken_screens : (t.withTaken l).screens = t.screens := rfl
end

/-- The work is the same whatever shares are taken, and leaves them. -/
def IgnoresTaken (f : State → State) : Prop := ∀ (s : State) (l : List Share), f (s.withTaken l) = (f s).withTaken l

theorem ignoresTaken_forScreens {f : Fin 8 → State → State} (h : ∀ n, IgnoresTaken (f n)) : IgnoresTaken (forScreens f) := by
  have hitems (items : List (Fin 8)) : IgnoresTaken (forEach items f) := by
    intro s l
    induction items generalizing s with
    | nil => rfl
    | cons a items ih => exact (congrArg (forEach items f) (h a s l)).trans (ih (f a s))
  exact hitems _

theorem ignoresTaken_hearLoss (p : Fin 12) (n : Fin 8) : IgnoresTaken (State.hearAnnouncement p .lost n) := by
  intro s l
  simp only [State.hearAnnouncement]
  rw [apply_ite (State.withTaken · l)]
  rfl

theorem ignoresTaken_tickHoldover (p : Fin 12) : IgnoresTaken (State.tickHoldover p) := by
  intro s l
  have hlose : (s.withTaken l).loseHoldover p = (s.loseHoldover p).withTaken l :=
    ignoresTaken_forScreens (ignoresTaken_hearLoss p) (s.modPort p fun x => { x with state := .lost, holdoverLeft := 0 }) l
  unfold State.tickHoldover
  rw [hlose, apply_ite (State.withTaken · l), apply_ite (State.withTaken · l)]
  rfl

theorem ignoresTaken_settleScreen (n : Fin 8) : IgnoresTaken (State.settleScreen n) := by
  intro s l
  simp only [State.settleScreen]
  rw [apply_ite (State.withTaken · l)]
  rfl

theorem ignoresTaken_settleDecoder (n : Fin 8) : IgnoresTaken (State.settleDecoder n) := fun _ _ => rfl

theorem ignoresTaken_tickEngine (n : Fin 8) : IgnoresTaken (State.tickEngine n) := fun _ _ => rfl

theorem ignoresTaken_endQuiet (counter : Long) (n : Fin 8) : IgnoresTaken (State.endQuiet counter n) := by
  intro s l
  simp only [State.endQuiet]
  rw [apply_ite (State.withTaken · l)]
  rfl

theorem ignoresTaken_tickMonitor (n : Fin 8) : IgnoresTaken (State.tickMonitor n) := fun _ _ => rfl

theorem ignoresTaken_tickTimers : IgnoresTaken State.tickTimers := by
  intro s l
  have hquiet := ignoresTaken_forScreens (ignoresTaken_endQuiet s.blockCounter) s l
  unfold State.tickTimers State.tickLines
  rw [show (s.withTaken l).blockCounter = s.blockCounter from rfl, hquiet]
  generalize forScreens (State.endQuiet s.blockCounter) s = t
  rfl

/-- A boundary's work after the links' share. -/
def State.afterLinks (s : State) : State := forScreens State.tickMonitor s.tickScreens.tickTimers

theorem ignoresTaken_afterLinks : IgnoresTaken State.afterLinks := by
  intro s l
  unfold State.afterLinks State.tickScreens
  rw [ignoresTaken_forScreens ignoresTaken_settleScreen, ignoresTaken_forScreens ignoresTaken_settleDecoder,
    ignoresTaken_forScreens ignoresTaken_tickEngine, ignoresTaken_tickTimers,
    ignoresTaken_forScreens ignoresTaken_tickMonitor]

/-- A boundary's work on one screen after the links' share; `Screen.throughBoundary` without its own link. -/
def Screen.afterLinks (t : State) (x : Screen) : Screen :=
  ((((x.settleSource t).settleDecoder t).tickEngine).endQuiet t.blockCounter).tickMonitor t

/-! The screens' operations do not look at the shares taken. -/

section
variable (t : State) (l : List Share) (x : Screen)

theorem withTaken_portIs : (t.withTaken l).portIs = t.portIs := by
  funext p st
  simp only [State.portIs, State.withTaken]

theorem settleSource_withTaken : x.settleSource (t.withTaken l) = x.settleSource t := by
  rw [Screen.settleSource, Context.settleSource, withTaken_portIs, validTag_of_loaded (t := t.withTaken l) (s := t) rfl]
  rfl

theorem settleDecoder_withTaken : x.settleDecoder (t.withTaken l) = x.settleDecoder t := by
  rw [Screen.settleDecoder, Decoder.atBoundary, format?_of_loaded (t := t.withTaken l) (s := t) rfl]
  rfl

theorem handing_withTaken : (t.withTaken l).handing x = t.handing x := by
  rw [State.handing, withTaken_portIs]
  rfl

theorem tickMonitor_withTaken : x.tickMonitor (t.withTaken l) = x.tickMonitor t := by
  rw [Screen.tickMonitor, handing_withTaken]
  rfl

theorem afterLinks_withTaken : x.afterLinks (t.withTaken l) = x.afterLinks t := by
  rw [Screen.afterLinks, settleSource_withTaken, settleDecoder_withTaken, tickMonitor_withTaken]
  rfl

end

section
variable (t : State) (x : Screen)

theorem afterLinks_link : (x.afterLinks t).link = x.link := rfl

theorem afterLinks_ctx : (x.afterLinks t).ctx = (x.ctx.settleSource t).1.resolve t.validTag := rfl

/-- The working map is the screen's (R72). -/
theorem afterLinks_map : (x.afterLinks t).dec.map = (x.afterLinks t).ctx.map := atBoundary_map.1

/-- The unit runs on what the screen hands to it. -/
theorem afterLinks_mon : (x.afterLinks t).mon = (x.mon.boundary (t.handing (x.afterLinks t))).summarise := by
  rw [Screen.afterLinks, handing_tickMonitor]
  rfl

end

/-- What comes after the links' share, screen by screen, with no share taken. -/
theorem afterLinks_untaken {u : State} (hu : u.taken = []) : SameParts u u.afterLinks ∧
    ∀ n : Fin 8, u.afterLinks.screens[n] = u.screens[n].afterLinks u.afterLinks := by
  obtain ⟨parts1, screens1⟩ := tickScreens_screens hu
  obtain ⟨parts2, screens2⟩ := tickTimers_screens (parts1.taken.trans hu)
  have htimers := parts1.trans parts2
  obtain ⟨parts3, screens3⟩ := onEach_forScreens onEach_tickMonitor _ (htimers.taken.trans hu)
  unfold State.afterLinks
  generalize u.tickScreens = v at parts1 screens1 parts2 screens2 htimers parts3 screens3 ⊢
  generalize v.tickTimers = w at parts2 screens2 htimers parts3 screens3 ⊢
  generalize forScreens State.tickMonitor w = t at parts3 screens3 ⊢
  have hall := htimers.trans parts3
  refine ⟨hall, fun n => (screens3 n).trans ?_⟩
  rw [screens2 n, screens1 n, Screen.afterLinks, onEach_tickMonitor.reads _ _ _ parts3, (parts2.trans parts3).counter,
    onEach_settleDecoder.reads _ _ _ hall, onEach_settleScreen.reads _ _ _ hall]

/-- What comes after the links' share, screen by screen; ports and format table stay. -/
theorem afterLinks_screens (s : State) : s.afterLinks.ports = s.ports ∧ s.afterLinks.loaded = s.loaded ∧
    ∀ n : Fin 8, s.afterLinks.screens[n] = s.screens[n].afterLinks s.afterLinks := by
  obtain ⟨hparts, hscreens⟩ := afterLinks_untaken (u := s.withTaken []) rfl
  have hports := hparts.ports
  have hloaded := hparts.loaded
  rw [ignoresTaken_afterLinks, withTaken_ports, withTaken_ports] at hports
  rw [ignoresTaken_afterLinks, withTaken_loaded, withTaken_loaded] at hloaded
  refine ⟨hports, hloaded, fun n => ?_⟩
  have hscreen := hscreens n
  rw [ignoresTaken_afterLinks, afterLinks_withTaken, withTaken_screens, withTaken_screens] at hscreen
  exact hscreen

theorem boundary_afterLinks (s : State) : s.boundary = s.settleDue.openBlock.tickLinks.afterLinks.withTaken [] := by
  unfold State.boundary State.afterLinks
  rfl

/-! ### The ports' share -/

/-- A screen changes in its active source and what goes with it alone. -/
def SourceMoved (x y : Screen) : Prop := y = { x with ctx := y.ctx } ∧ SourceOnly x.ctx y.ctx

theorem SourceMoved.refl (x : Screen) : SourceMoved x x := ⟨rfl, rfl⟩

theorem SourceMoved.trans {x y z : Screen} (h : SourceMoved x y) (k : SourceMoved y z) : SourceMoved x z :=
  ⟨by rw [k.1, h.1], h.2.trans k.2⟩

theorem sourceMoved_hearLoss (p : Fin 12) (x : Screen) : SourceMoved x (x.hearLoss p) := by
  unfold Screen.hearLoss Context.armFailover
  split
  · refine ⟨rfl, ?_⟩
    simp only
    split <;> rfl
  · exact .refl x

/-- `t` is `s` after work on port `p` at a boundary: the port comes to LOST only from LOST or from the end of its holdover (R5). -/
structure PortTicked (p : Fin 12) (s t : State) : Prop where
  loaded : t.loaded = s.loaded
  other : ∀ q : Fin 12, q ≠ p → t.ports[q] = s.ports[q]
  lost : t.ports[p].state = .lost → s.ports[p].state = .lost ∨ s.ports[p].expires = true
  screens : ∀ n : Fin 8, SourceMoved s.screens[n] t.screens[n]

theorem PortTicked.refl (p : Fin 12) (s : State) : PortTicked p s s := ⟨rfl, fun _ _ => rfl, .inl, fun _ => .refl _⟩

/-- Work that keeps the port's state and the screens may follow. -/
theorem PortTicked.after {p : Fin 12} {s t u : State} (h : PortTicked p s t) (k : OnPort p id t u)
    (hstate : u.ports[p].state = t.ports[p].state) : PortTicked p s u where
  loaded := k.loaded.trans h.loaded
  other q hq := (k.other q hq).trans (h.other q hq)
  lost hl := h.lost (hstate ▸ hl)
  screens n := k.screens n ▸ h.screens n

theorem portTicked_tickHoldover (p : Fin 12) (s : State) : PortTicked p s (s.tickHoldover p) := by
  have hwork := onPort_tickHoldover p (s := s.withTaken []) rfl
  rw [ignoresTaken_tickHoldover] at hwork
  refine ⟨hwork.loaded, hwork.other, fun hl => ?_, fun n => ?_⟩
  · by_cases hs : s.ports[p].state = .holdover
    · by_cases hleft : s.ports[p].holdoverLeft ≤ 1
      · exact .inr (by simp only [Port.expires, hs, hleft]; rfl)
      · rw [State.tickHoldover, if_pos hs, if_neg hleft] at hl
        simp only [Fin.getElem_fin, State.modPort_same] at hl
        exact .inl hl
    · rw [State.tickHoldover, if_neg hs] at hl
      exact .inl hl
  · have hscreen : (s.tickHoldover p).screens[n] = if s.ports[p].expires then s.screens[n].hearLoss p else s.screens[n] :=
      hwork.screens n
    rw [hscreen]
    split
    · exact sourceMoved_hearLoss p _
    · exact .refl _

theorem tickWindow_state (x : Port) : x.tickWindow.state = x.state := by
  unfold Port.tickWindow
  split
  · split <;> rfl
  · rfl

theorem capturing_state (kind : ErrorKind) (index : Option Nat) (counter : Long) (x : Port) :
    (x.capturing kind index counter).state = x.state := by
  unfold Port.capturing
  split <;> rfl

theorem tickAssembly_state (counter : Long) (p : Fin 12) (s : State) :
    (s.tickAssembly counter p).ports[p].state = s.ports[p].state := by
  unfold State.tickAssembly State.timeoutMessage State.discardMessage State.offerError State.count
  split
  · split
    · split <;> simp [capturing_state]
    · rfl
  · rfl

/-- A port's share of the boundary, or what is left of it (R5, R9, R18). -/
theorem portTicked_tickPort (counter : Long) (p : Fin 12) (s : State) : PortTicked p s (s.tickPort counter p) := by
  have hhold : PortTicked p s (s.unlessTaken (.holdover p) (State.tickHoldover p)) := by
    unfold State.unlessTaken
    split
    · exact .refl p s
    · exact portTicked_tickHoldover p s
  unfold State.tickPort
  generalize s.unlessTaken (.holdover p) (State.tickHoldover p) = t at hhold ⊢
  have hwindow : PortTicked p s (t.unlessTaken (.window p) fun s => s.modPort p Port.tickWindow) := by
    unfold State.unlessTaken
    split
    · exact hhold
    · exact hhold.after (onPort_modPort t p _) (by simp [tickWindow_state])
  generalize (t.unlessTaken (.window p) fun s => s.modPort p Port.tickWindow) = u at hwindow ⊢
  unfold State.unlessTaken
  split
  · exact hwindow
  · exact hwindow.after (onPort_tickAssembly counter p u) (tickAssembly_state counter p u)

/-- The format table stays, and each screen changes in its active source alone. -/
def SourcesMoved (s t : State) : Prop := t.loaded = s.loaded ∧ ∀ n : Fin 8, SourceMoved s.screens[n] t.screens[n]

/-- The ports' share of the boundary, or what is left of it. -/
theorem forPorts_portTicked (counter : Long) (s : State) :
    let t := forPorts (State.tickPort counter) s
    SourcesMoved s t ∧ ∀ q : Fin 12, t.ports[q].state = .lost → s.ports[q].state = .lost ∨ s.ports[q].expires = true := by
  refine ⟨forEach_keeps (R := SourcesMoved) (fun s => ⟨rfl, fun _ => .refl _⟩)
    (fun _ _ _ h k => ⟨k.1.trans h.1, fun n => (h.2 n).trans (k.2 n)⟩) _
    (fun p t => ⟨(portTicked_tickPort counter p t).loaded, (portTicked_tickPort counter p t).screens⟩) _ s, fun q hq => ?_⟩
  obtain ⟨u, hbefore, hafter⟩ := forEach_once (R := fun s t => t.ports[q] = s.ports[q]) (fun _ => rfl)
    (fun _ _ _ h k => k.trans h) (fun p t hp => (portTicked_tickPort counter p t).other q hp.symm) (List.nodup_finRange 12)
    (List.mem_finRange q) s
  have hlost := (portTicked_tickPort counter q u).lost
  rw [hbefore] at hlost
  exact hlost ((congrArg Port.state hafter).symm.trans hq)

/-! ### The links' share -/

/-- A screen after the links' share: its source may have moved, and a port that is UP presents what its rack says (R35, R39). -/
structure LinkTicked (x y : Screen) : Prop where
  ctx : SourceOnly x.ctx y.ctx
  mon : y.mon = x.mon
  up : x.link.link = .up → y.link = x.link.present

theorem tickLink_eq (n : Fin 8) (s : State) : s.tickLink n = s.modScreen n fun x =>
    { x with link := (if s.taken.contains (.exchange n) then x.link else x.link.tickTimer).present } := by
  unfold State.tickLink State.unlessTaken
  split
  · rfl
  · simp [State.modScreen]

/-- The screen ports' share of the boundary, or what is left of it. -/
theorem forScreens_tickLink (s : State) : SameParts s (forScreens State.tickLink s) ∧ ∀ n : Fin 8,
    ∃ b : Bool, (forScreens State.tickLink s).screens[n] =
      { s.screens[n] with link := (if b then s.screens[n].link else s.screens[n].link.tickTimer).present } := by
  refine ⟨forEach_keeps .refl (fun _ _ _ h k => h.trans k) _ (fun n t => ?_) _ s, fun n => ?_⟩
  · rw [tickLink_eq]
    exact ⟨rfl, rfl, rfl, rfl⟩
  · have hother (m : Fin 8) (t : State) (hm : m ≠ n) : (t.tickLink m).screens[n] = t.screens[n] := by
      rw [tickLink_eq]
      exact State.modScreen_other t m n _ hm.symm
    obtain ⟨u, hbefore, hafter⟩ := forEach_once (R := fun s t => t.screens[n] = s.screens[n]) (fun _ => rfl)
      (fun _ _ _ h k => k.trans h) hother (List.nodup_finRange 8) (List.mem_finRange n) s
    refine ⟨u.taken.contains (.exchange n), hafter.trans ?_⟩
    rw [tickLink_eq, ← hbefore]
    exact State.modScreen_same u n _

/-- The links' share of the boundary, or what is left of it. -/
theorem tickLinks_ticked (s : State) : s.tickLinks.loaded = s.loaded ∧
    (∀ q : Fin 12, s.tickLinks.ports[q].state = .lost → s.ports[q].state = .lost ∨ s.ports[q].expires = true) ∧
    ∀ n : Fin 8, LinkTicked s.screens[n] s.tickLinks.screens[n] := by
  obtain ⟨⟨hloaded, hmoved⟩, hlost⟩ := forPorts_portTicked s.blockCounter s
  unfold State.tickLinks
  generalize forPorts (State.tickPort s.blockCounter) s = t at hloaded hmoved hlost ⊢
  obtain ⟨harbiters, hsame⟩ := ArbitersOnly.trans _ _ _ (arbitersOnly_expireResponses s.blockCounter t)
    (arbitersOnly_tickArbiters _)
  generalize (forPorts (State.expireResponses s.blockCounter) t).tickArbiters = u at harbiters hsame ⊢
  obtain ⟨hparts, hlinks⟩ := forScreens_tickLink u
  have hall := harbiters.trans hparts
  refine ⟨hall.loaded.trans hloaded, fun q => ?_, fun n => ?_⟩
  · rw [hall.ports]
    exact hlost q
  · obtain ⟨b, hb⟩ := hlinks n
    obtain ⟨hrest, honly⟩ := hmoved n
    have hmon : t.screens[n].mon = s.screens[n].mon := by rw [hrest]
    have hlink : t.screens[n].link = s.screens[n].link := by rw [hrest]
    rw [hsame] at hb
    rw [hb]
    refine ⟨honly, hmon, fun hup => ?_⟩
    simp only [hlink, tickTimer_up hup, ite_self]

/-! ### What a boundary can make of an alarm -/

/-- What the unit of screen `n` is handed at a boundary from `s`, as far as an alarm's condition goes: `y` is the screen after the
boundary's other work, `t` the state. -/
structure Foreseen (s t : State) (n : Fin 8) (y : Screen) : Prop where
  only : ∃ c, SourceOnly s.screens[n].ctx c ∧ y.ctx = c.resolve s.validTag
  map : y.dec.map = y.ctx.map
  up : s.screens[n].link.link = .up → y.link = s.screens[n].link.present
  lost : ∀ q : Fin 12, t.ports[q].state = .lost → s.ports[q].state = .lost ∨ s.ports[q].expires = true

/-- A boundary with no reset pending runs each unit on what is foreseen. -/
theorem boundary_foreseen {s : State} (hr : s.resetPending = none) (n : Fin 8) : ∃ m : Monitor,
    Foreseen s s.boundary n s.boundary.screens[n] ∧ m = { s.screens[n].mon with pending := m.pending, marks := m.marks } ∧
      s.boundary.screens[n].mon = (m.boundary (s.boundary.handing s.boundary.screens[n])).summarise := by
  have hdue := dueTaken_settleDue hr
  have hboundary := boundary_afterLinks s
  generalize s.settleDue = d at hdue hboundary
  have hscreen := hdue.screens n
  obtain ⟨hloaded, hlost, hlinks⟩ := tickLinks_ticked d.openBlock
  have hlink : LinkTicked d.screens[n] d.openBlock.tickLinks.screens[n] := hlinks n
  have hports : d.openBlock.ports = s.ports := hdue.parts.ports
  have htable : d.openBlock.loaded = s.loaded := hdue.parts.loaded
  rw [hports] at hlost
  generalize d.openBlock.tickLinks = v at hloaded hlost hlink hboundary
  obtain ⟨hafterPorts, hafterTable, hafter⟩ := afterLinks_screens v
  generalize v.afterLinks = t at hafterPorts hafterTable hafter hboundary
  have hvalid : t.validTag = s.validTag := validTag_of_loaded (hafterTable.trans (hloaded.trans htable))
  have hy := hafter n
  rw [hboundary, handing_withTaken, withTaken_screens, hy]
  refine ⟨v.screens[n].mon, ⟨⟨(v.screens[n].ctx.settleSource t).1, ?_, ?_⟩, afterLinks_map t _, fun hup => ?_, fun q => ?_⟩, ?_,
    afterLinks_mon t _⟩
  · exact hscreen.ctx ▸ hlink.ctx.trans (sourceOnly_settleSource t _)
  · exact hvalid ▸ afterLinks_ctx t _
  · rw [← hscreen.link] at hup ⊢
    exact (afterLinks_link t _).trans (hlink.up hup)
  · rw [withTaken_ports, hafterPorts]
    exact hlost q
  · rw [hlink.mon]
    exact hscreen.mon

end Sys2Proof.Machine
end

-- Proofs/ScreenTimers: the timed steps of screens and contact lines (O56)
section
/-! An alarm's timed step acts where the coming boundary leaves the alarm CLEAR, and is then an alarm event (R117, R129, assumption
log 2). That the boundary does so, wherever its condition cannot hold or one more occurrence would not raise it, is
`boundary_foreseen`. -/

namespace Sys2Proof.Machine

/-! ### The condition of an alarm at the coming boundary -/

section
variable {s t : State} {n : Fin 8} {y : Screen}

/-- What a boundary leaves of the screen record (section 3.1). -/
theorem Foreseen.context (h : Foreseen s t n y) : y.ctx.primary = s.screens[n].ctx.primary ∧
    y.ctx.meterSpeed = s.screens[n].ctx.meterSpeed ∧ y.ctx.map = s.screens[n].ctx.map := by
  obtain ⟨c, honly, hy⟩ := h.only
  rw [hy, resolve_rest, honly]
  exact ⟨rfl, rfl, rfl⟩

/-- The FORMAT condition holds only without a valid tag before the fallback (R55). -/
theorem Foreseen.format (h : Foreseen s t n y) (hf : y.ctx.formatCond = true) :
    (¬∃ k, s.screens[n].ctx.override = some k ∧ s.validTag k = true) ∧
      ¬∃ k, s.screens[n].ctx.descTag = some k ∧ s.validTag k = true := by
  obtain ⟨c, honly, hy⟩ := h.only
  have hover : c.override = s.screens[n].ctx.override := by rw [honly]
  have hdesc : c.descTag = s.screens[n].ctx.descTag := by rw [honly]
  rw [hy] at hf
  rw [← hover, ← hdesc]
  have hno : ∀ k, c.override = some k → s.validTag k = false := fun k hk => Bool.not_eq_true _ ▸ fun hv => by
    rw [(resolve_override hk hv).2] at hf
    cases hf
  refine ⟨fun ⟨k, hk, hv⟩ => ?_, fun ⟨k, hk, hv⟩ => ?_⟩
  · rw [hno k hk] at hv
    cases hv
  · rw [(resolve_descTag hno hk hv).2] at hf
    cases hf

/-- A channel that is OK on a port in UP is presented OK (R39). -/
theorem Foreseen.presented (h : Foreseen s t n y) {k : Fin 16} (hup : s.screens[n].link.link = .up)
    (hok : s.screens[n].link.stored[k] = .ok) (hcount : ∃ m, s.screens[n].link.channelCount = some m ∧ k.val < m) :
    y.link.presented[k] = .ok := by
  obtain ⟨m, hm, hk⟩ := hcount
  have hpresents := (presented_after_tick s.screens[n].link k).1 m hup hm hk
  rw [tickTimer_up hup, ← h.up hup] at hpresents
  exact hpresents.trans hok

/-- An alarm's condition at the coming boundary, where it holds, is one that may hold (R53, R55, R109, R111, R112). -/
theorem Foreseen.mayOccur (h : Foreseen s t n y) {m : Monitor} (htable : m.table = s.screens[n].mon.table)
    (hmeters : m.meters = s.screens[n].mon.meters) {id : Fin 54}
    (hc : (m.takeHanded (t.handing y)).condition (t.handing y) id = true) : MayOccur s n id := by
  obtain ⟨hprimary, hspeed, hmap⟩ := h.context
  obtain ⟨hsource, hamp, hlink⟩ := handing_conditions t y
  obtain ⟨hover, hsilent, hid48, hid50, hid51, hid53⟩ := classOf_iff id
  have hrecord : (m.takeHanded (t.handing y)).record id = s.screens[n].mon.record id := by
    rw [takeHanded_record, Monitor.record, Monitor.record, htable]
  have hlevel (c : Fin 16) : (m.takeHanded (t.handing y)).meters[c].level = s.screens[n].mon.meters[c].level +
      (s.screens[n].mon.meters[c].running - s.screens[n].mon.meters[c].level) / 2 ^ s.screens[n].ctx.meterSpeed := by
    simp [Monitor.takeHanded, Meter.boundary, State.handing, asr, hmeters, hspeed]
  rw [condition_of_class, hrecord, hlevel, hover, hsilent, hid48, hid50, hid51, hid53, hsource, hamp, hlink, atOrAbove_iff,
    below_iff] at hc
  rcases hc with ⟨hid, hv⟩ | ⟨hid, he, hv⟩ | ⟨rfl, q, hq, hlost⟩ | ⟨rfl, k, hrole, hk⟩ | ⟨rfl, hup⟩ | ⟨rfl, hf⟩
  · exact .inl ⟨channelOf id, hid, hv⟩
  · refine .inr (.inl ⟨channelOf id, hid, ?_, hv⟩)
    rw [← hmap, ← h.map]
    simpa [State.handing] using he
  · refine .inr (.inr (.inl ⟨rfl, q, hprimary ▸ hq, (h.lost q hlost).imp id fun hexpires => ?_⟩))
    simpa [Port.expires] using hexpires
  · refine .inr (.inr (.inr (.inl ⟨rfl, k, hmap ▸ h.map ▸ hrole, fun ⟨hup, hok, hcount⟩ => hk ?_⟩)))
    exact h.presented hup hok hcount
  · refine .inr (.inr (.inr (.inr (.inl ⟨rfl, fun hx => hup ?_⟩))))
    rw [h.up hx, present_link]
    exact hx
  · exact .inr (.inr (.inr (.inr (.inr ⟨rfl, h.format hf⟩))))

end

/-! ### Where the coming boundary leaves an alarm CLEAR -/

/-- The window of a QUALIFYING alarm ends with this block (R117). -/
theorem windowEnds_iff (a : Alarm) : a.windowEnds = true ↔ a.state = .qualifying ∧ a.left ≤ 1 := by
  simp [Alarm.windowEnds]

/-- The release of a clean RELEASING alarm is complete with this block (R117). -/
theorem releaseEnds_iff (r : ClassRecord) (a : Alarm) :
    a.releaseEnds r = true ↔ a.state = .releasing ∧ a.hit = false ∧ r.release ≤ a.clean + 1 := by
  simp [Alarm.releaseEnds, and_assoc]

section
variable {r : ClassRecord} {a : Alarm}

theorem boundaryStep_windowEnds (h : a.state = .qualifying ∧ a.left ≤ 1) : (a.boundaryStep r).state = .clear := by
  rw [((boundaryStep_atBoundaryStep r a).2.1 h.1).1 h.2]
  rfl

theorem boundaryStep_releaseEnds (h : a.state = .releasing ∧ a.hit = false ∧ r.release ≤ a.clean + 1) :
    (a.boundaryStep r).state = .clear := by
  obtain ⟨hstate, hhit, hrelease⟩ := h
  rw [((boundaryStep_atBoundaryStep r a).2.2.2 hstate hhit).1 hrelease]
  rfl

/-- An occurrence that leaves the count below N does not keep a window from ending (R116, R117). -/
theorem boundaryStep_occurrence (h : a.state = .qualifying ∧ a.left ≤ 1) (hcount : a.count + 2 ≤ r.count) :
    ((a.occurrence r).1.boundaryStep r).state = .clear := by
  rw [((occurrence_atOccurrence r a).2.1 h.1).2 hcount]
  exact boundaryStep_windowEnds h

end

section
variable {s : State} {n : Fin 8} {id : Fin 54}

/-- With no reset pending, a boundary leaves an alarm CLEAR that no command has ended, where its step does so without an
occurrence and, if its condition may hold, with one too (R111, R112, R116, R117). -/
theorem clears_of_step (hr : s.resetPending = none) (hearly : s.screens[n].mon.alarms[id].early = none)
    (hstep : (s.screens[n].mon.alarms[id].boundaryStep (s.screens[n].mon.record id)).state = .clear)
    (hocc : MayOccur s n id →
      ((s.screens[n].mon.alarms[id].occurrence (s.screens[n].mon.record id)).1.boundaryStep (s.screens[n].mon.record id)).state =
        .clear) : s.clearsAtBoundary n id = true := by
  obtain ⟨m, hseen, hm, hmon⟩ := boundary_foreseen hr n
  have htable : m.table = s.screens[n].mon.table := by rw [hm]
  have hmeters : m.meters = s.screens[n].mon.meters := by rw [hm]
  have halarms : m.alarms = s.screens[n].mon.alarms := by rw [hm]
  have hrecord : m.record id = s.screens[n].mon.record id := by rw [Monitor.record, Monitor.record, htable]
  rw [clearsAtBoundary_iff, hmon, Monitor.summarise_alarms, boundary_alarms, Monitor.alarmAfter]
  split
  · rw [Monitor.occurrenceAt, takeHanded_alarms, takeHanded_record, halarms, hrecord, Alarm.resumed_none hearly]
    split
    · next hc => exact hocc (hseen.mayOccur htable hmeters hc)
    · exact hstep
  · rfl

/-! ### A timed step of an alarm -/

/-- The unit's early end, in the terms of the statement (R117, R129, R158, assumption log 2). -/
theorem alarmEvent_endEarly {what : EarlyEnd}
    (h : s.screens[n].mon.alarms[id].endedEarly = { clearInstance with early := some what }) :
    let t := s.alarmEvent n (Monitor.endEarly id)
    t = { s.modMon n fun m => { m with alarms := m.alarms.set id.val { clearInstance with early := some what }
                                       summary := t.screens[n].mon.summary } with lines := t.lines } ∧
      SummaryRight t.screens[n].mon ∧ LinesFollow (fun k => k = n) s t := by
  intro t
  have hmon : t.screens[n].mon = (s.screens[n].mon.endEarly id).summarise := alarmEvent_mon
  have hline (l : Fin 16) : t.lines[l] = s.lines[l].followSummary n t.screens[n].mon.summary := alarmEvent_line s n _ l
  refine ⟨?_, hmon ▸ summarise_right _, fun l => ⟨fun k hmode howner hk => ?_, fun hno => ?_⟩⟩
  · have hunit : (s.modMon n fun m => (m.endEarly id).summarise) = s.modMon n fun m =>
        { m with alarms := m.alarms.set id.val { clearInstance with early := some what }, summary := t.screens[n].mon.summary } :=
      modScreen_congr (by simp only [hmon, Monitor.summarise, Monitor.endEarly, h])
    rw [← hunit]
    rfl
  · subst hk
    exact (hline l).trans (if_pos ⟨hmode, howner⟩)
  · exact (hline l).trans (if_neg fun ⟨hmode, howner⟩ => hno n hmode howner rfl)

theorem endedEarly_window (h : s.screens[n].mon.alarms[id].state = .qualifying) :
    s.screens[n].mon.alarms[id].endedEarly =
      { clearInstance with early := some (.window s.screens[n].mon.alarms[id].count) } := by
  simp only [Alarm.endedEarly, h]
  rfl

theorem endedEarly_release (h : s.screens[n].mon.alarms[id].state = .releasing) :
    s.screens[n].mon.alarms[id].endedEarly =
      { clearInstance with early := some (.release s.screens[n].mon.alarms[id].clean) } := by
  simp only [Alarm.endedEarly, h]
  rfl

/-- What the coming boundary does is what the command MASTER_BLOCK_BOUNDARY does. -/
theorem clears_iff (hp : s.powered = true) :
    (∃ u, exec .masterBlockBoundary s = .next u ∧ u.screens[n].mon.alarms[id].state = .clear) ↔ s.clearsAtBoundary n id = true := by
  have hx : exec .masterBlockBoundary s = .next s.boundary := live_on hp _
  rw [clearsAtBoundary_iff, hx]
  generalize s.boundary = t
  refine ⟨fun ⟨u, hu, hc⟩ => ?_, fun hc => ⟨t, rfl, hc⟩⟩
  obtain rfl := Host.Outcome.next.inj hu
  exact hc

end

/-! ### Pulses, quiet intervals and crossfades -/

/-- An update that leaves the line as it is leaves the state. -/
theorem modLine_self {s : State} {l : Fin 16} {f : Line → Line} (h : f s.lines[l] = s.lines[l]) : s.modLine l f = s := by
  have hset : s.lines.set l.val (f s.lines[l]) = s.lines := by
    rw [h]
    exact Vector.set_getElem_self l.isLt
  simp only [State.modLine, hset]

/-- Two updates of one line that agree on it are one. -/
theorem modLine_congr {s : State} {l : Fin 16} {f g : Line → Line} (h : f s.lines[l] = g s.lines[l]) :
    s.modLine l f = s.modLine l g := by
  simp only [State.modLine, h]

/-- A crossfade at its end leaves the incoming bank active and the other at rest (R99). -/
theorem endCrossfade_eq {e : Engine} {y : Crossfade} (h : e.crossfade = some y) : e.endCrossfade =
    { e with active := y.incoming, crossfade := none
             bankA := if y.incoming = .a then e.bankA else restedBank e.bankA
             bankB := if y.incoming = .b then e.bankB else restedBank e.bankB } := by
  rw [Engine.endCrossfade, h]
  obtain ⟨incoming, frame⟩ := y
  cases incoming <;> rfl

section
variable {s : State} (hp : s.powered = true)
include hp

/-- CONTACT_PULSE_END (R157). -/
theorem exec_contactPulseEnd (l : Fin 16) : exec (.contactPulseEnd l) s =
    .next (s.modLine l (Line.endPulse (s.blockCounter + 1))) := by
  rw [exec, execContactPulseEnd, live_on hp, State.nextCounter]

theorem contactPulseEnd_due {l : Fin 16} (h : s.lines[l].pulseEnd = some (s.blockCounter + 1)) :
    exec (.contactPulseEnd l) s = .next (s.modLine l fun x => { x with closed := false, pulseEnd := none }) := by
  rw [exec_contactPulseEnd hp, modLine_congr]
  exact if_pos h

theorem contactPulseEnd_notDue {l : Fin 16} (h : s.lines[l].pulseEnd ≠ some (s.blockCounter + 1)) :
    exec (.contactPulseEnd l) s = .next s := by
  rw [exec_contactPulseEnd hp, modLine_self]
  exact if_neg h

/-- QUIET_INTERVAL_END (R148). -/
theorem exec_quietIntervalEnd (n : Fin 8) : exec (.quietIntervalEnd n) s =
    .next (if s.screens[n].quiet = some (s.blockCounter + 1) then s.modScreen n fun x => { x with quiet := none } else s) :=
  live_on hp _

theorem crossfadeEnd_due {n : Fin 8} {y : Crossfade} (hy : s.screens[n].eng.crossfade = some y) (hover : 64 ≤ y.frame) :
    exec (.crossfadeEnd n) s = .next (s.modEng n fun e =>
      { e with active := y.incoming, crossfade := none
               bankA := if y.incoming = .a then e.bankA else restedBank e.bankA
               bankB := if y.incoming = .b then e.bankB else restedBank e.bankB }) := by
  have hx : exec (.crossfadeEnd n) s = .next (s.endCrossfade n) := live_on hp _
  have hdue : s.screens[n].eng.crossfadeOver = true := by
    rw [Engine.crossfadeOver, hy]
    exact decide_eq_true hover
  rw [hx, State.endCrossfade, if_pos hdue]
  exact congrArg _ (modScreen_congr (by rw [endCrossfade_eq hy]))

theorem crossfadeEnd_notDue {n : Fin 8} (hy : ∀ y, s.screens[n].eng.crossfade = some y → y.frame ≤ 63) :
    exec (.crossfadeEnd n) s = .next s := by
  have hx : exec (.crossfadeEnd n) s = .next (s.endCrossfade n) := live_on hp _
  rw [hx, State.endCrossfade, crossfadeOver_false hy]
  rfl

/-- QUALIFY_WINDOW_EXPIRY (R117). -/
theorem exec_qualifyWindowExpiry (n : Fin 8) (id : Fin 54) : exec (.qualifyWindowExpiry n id) s =
    .next (s.endAlarm n id s.screens[n].mon.alarms[id].windowEnds) := by
  rw [exec, execQualifyWindowExpiry, live_on hp]

/-- RELEASE_COMPLETE (R117). -/
theorem exec_releaseComplete (n : Fin 8) (id : Fin 54) : exec (.releaseComplete n id) s =
    .next (s.endAlarm n id (s.screens[n].mon.alarms[id].releaseEnds (s.screens[n].mon.record id))) := by
  rw [exec, execReleaseComplete, live_on hp]

end

/-! ### The statement -/

/-- Settles O56: a pulse, a quiet interval and a crossfade by their own equations; an alarm by `alarmEvent_endEarly` where
`clears_of_step` or the statement's own premise lets the boundary clear it. -/
theorem screenTimersEndTheirItems : Obligations.ScreenTimersEndTheirItems := by
  intro s hp next
  refine ⟨fun l => ⟨contactPulseEnd_due hp, contactPulseEnd_notDue hp⟩, fun n => ?_⟩
  intro x
  refine ⟨fun hq => ?_, fun hq => ?_, fun y => crossfadeEnd_due hp, crossfadeEnd_notDue hp, fun id => ?_⟩
  · rw [exec_quietIntervalEnd hp, if_pos hq]
  · rw [exec_quietIntervalEnd hp, if_neg hq]
  intro a windowEnds releaseEnds clears ended
  have hclears : clears ↔ s.clearsAtBoundary n id = true := clears_iff hp
  have hwindow : windowEnds ↔ a.windowEnds = true := (windowEnds_iff a).symm
  have hrelease : releaseEnds ↔ a.releaseEnds (x.mon.record id) = true := (releaseEnds_iff _ a).symm
  have hstays {c : Instr} {ends : Bool} (hx : exec c s = .next (s.endAlarm n id ends))
      (h : ¬(ends = true ∧ s.clearsAtBoundary n id = true)) : exec c s = .next s := by
    rw [not_and_or, Bool.not_eq_true, Bool.not_eq_true] at h
    rw [hx, endAlarm_stays h]
  have hended {c : Instr} {ends : Bool} {what : EarlyEnd} (hx : exec c s = .next (s.endAlarm n id ends)) (he : ends = true)
      (hc : s.clearsAtBoundary n id = true) (hwhat : a.endedEarly = { clearInstance with early := some what }) : ended c what := by
    rw [endAlarm_ends he hc] at hx
    exact ⟨_, hx, alarmEvent_endEarly hwhat⟩
  have hw := exec_qualifyWindowExpiry hp n id
  have hr := exec_releaseComplete hp n id
  refine ⟨fun h => ?_, fun h hc => ?_, fun h => ?_, fun h hc => ?_, fun hreset hearly h hcount => ?_,
    fun hreset hearly h hno => ?_⟩
  · exact hstays hw (by rwa [← hwindow, ← hclears])
  · exact hended hw (hwindow.1 h) (hclears.1 hc) (endedEarly_window h.1)
  · exact hstays hr (by rwa [← hrelease, ← hclears])
  · exact hended hr (hrelease.1 h) (hclears.1 hc) (endedEarly_release h.1)
  · refine hended hw (hwindow.1 h) ?_ (endedEarly_window h.1)
    exact clears_of_step hreset hearly (boundaryStep_windowEnds h) fun hmay =>
      boundaryStep_occurrence h (hcount.resolve_left fun hno => hno hmay)
  · refine hended hr (hrelease.1 h) ?_ (endedEarly_release h.1)
    exact clears_of_step hreset hearly (boundaryStep_releaseEnds h) fun hmay => absurd hmay hno

end Sys2Proof.Machine
end

-- Proofs/ReturnChannel: messages that leave a return channel (O53) and the grants that put them there (O52)
section
/-! A message leaves a channel by one update of its arbiter. A grant is found in a cyclic order: `find?` in the model's order is
`FirstAfter` in the statement's, and the requester so found takes the channel (R169 to R172, R188). -/

namespace Sys2Proof.Machine

/-! ### Updates of one arbiter -/

/-- Two updates of one arbiter that agree on it are one. -/
theorem modArb_congr {s : State} {p : Fin 12} {f g : Arbiter → Arbiter} (h : f s.arbiters[p] = g s.arbiters[p]) :
    s.modArb p f = s.modArb p g := by
  simp only [State.modArb, h]

/-- Two updates of one arbiter in turn are one. -/
theorem modArb_modArb (s : State) (p : Fin 12) (f g : Arbiter → Arbiter) :
    (s.modArb p f).modArb p g = s.modArb p fun a => g (f a) := by
  simp [State.modArb]

/-! ### A message that leaves its channel -/

section
variable {s : State} {p : Fin 12} {m : Sending}

/-- A response that leaves the channel has no further owner; one to PART-RESET makes the reset due (R172, R188). -/
theorem freeChannel_resp (h : m.owner = .resp) (lost : Bool) : s.freeChannel p m lost =
    { s.modArb p fun a => { a with channel := none } with
      resetPending := if m.forReset then s.resetPending.map fun x => { x with due := true } else s.resetPending } := by
  rw [State.freeChannel, h]
  cases m.forReset <;> rfl

/-- A notice that leaves the channel is released by its screen (R172). -/
theorem freeChannel_screen {n : Fin 8} (h : m.owner = .screen n) (lost : Bool) : s.freeChannel p m lost =
    (s.modArb p fun a => { a with channel := none }).modNotice n (NoticeUnit.release lost) := by
  rw [State.freeChannel, h]

theorem messageSent_free (h : s.arbiters[p].channel = none) : s.messageSent p = s := by
  rw [State.messageSent, h]

theorem messageSent_unfinished (h : s.arbiters[p].channel = some m) (hleft : m.sent < m.words.length) : s.messageSent p = s := by
  rw [State.messageSent, h]
  exact if_neg (Nat.not_le.2 hleft)

theorem messageSent_finished (h : s.arbiters[p].channel = some m) (hall : m.words.length ≤ m.sent) :
    s.messageSent p = s.freeChannel p m false := by
  rw [State.messageSent, h]
  exact if_pos hall

theorem abandonMessage_free (h : s.arbiters[p].channel = none) : s.abandonMessage p = s := by
  rw [State.abandonMessage, h]

theorem abandonMessage_unfinished (h : s.arbiters[p].channel = some m) (hleft : m.sent < m.words.length) :
    s.abandonMessage p = (s.modArb p fun a => { a with messagesAbandoned := bump a.messagesAbandoned }).freeChannel p m true := by
  rw [State.abandonMessage, h]
  exact if_neg (Nat.not_le.2 hleft)

end

/-- Settles O53: what the two operations do by the state of the channel, and `freeChannel` by the owner of its message. -/
theorem sentAndAbandonedMessagesFreeTheChannel : Obligations.SentAndAbandonedMessagesFreeTheChannel := by
  intro p s hp
  have hx : exec (.messageSent p) s = .next (s.messageSent p) := live_on hp _
  refine ⟨fun h => ⟨?_, abandonMessage_free h⟩, fun m h => ⟨fun hleft => ?_, fun hall => ⟨fun hr => ?_, fun n hn => ?_⟩,
    fun hleft => ⟨fun hr => ?_, fun n hn => ?_⟩⟩⟩
  · rw [hx, messageSent_free h]
  · rw [hx, messageSent_unfinished h hleft]
  · rw [hx, messageSent_finished h hall, freeChannel_resp hr]
  · rw [hx, messageSent_finished h hall, freeChannel_screen hn]
    rfl
  · rw [abandonMessage_unfinished h hleft, freeChannel_resp hr, modArb_modArb]
    rfl
  · rw [abandonMessage_unfinished h hleft, freeChannel_screen hn, modArb_modArb]
    rfl

/-! ### Requesters -/

theorem waits_iff (s : State) (p : Fin 12) (q : Requester) : s.waits p q = true ↔ Waits s p q := by
  cases q with
  | resp => simp [State.waits, Waits]
  | screen n =>
    simp only [State.waits, Waits]
    split
    · next r u hr hu =>
      rw [Bool.and_eq_true, beq_iff_eq, Bool.not_eq_true']
      refine ⟨fun ⟨hport, hwaiting⟩ => ⟨r, u, hr, hport, hu, hwaiting⟩, fun ⟨r', u', hr', hport, hu', hwaiting⟩ => ?_⟩
      obtain rfl := Option.some.inj (hr.symm.trans hr')
      obtain rfl := Option.some.inj (hu.symm.trans hu')
      exact ⟨hport, hwaiting⟩
    · next hnone =>
      refine iff_of_false Bool.false_ne_true ?_
      rintro ⟨r, u, hr, -, hu, -⟩
      exact hnone r u hr hu

theorem leftOf_eq (a : Arbiter) (q : Requester) : a.leftOf q = remaining a q := by cases q <;> rfl

/-- The model's cyclic order, by cutting one list, is the statement's (R169). -/
theorem orderAfter_eq (start : Option Requester) : orderAfter start = cyclicAfter start := by
  cases start with
  | none => rfl
  | some q =>
    cases q with
    | resp => rfl
    | screen n => revert n; decide

theorem mem_cyclicAfter (start : Option Requester) (q : Requester) : q ∈ cyclicAfter start := by
  cases start with
  | none => cases q <;> simp [cyclicAfter]
  | some start =>
    cases start with
    | resp => cases q <;> simp [cyclicAfter]
    | screen n =>
      cases q with
      | resp => simp [cyclicAfter]
      | screen k => simpa [cyclicAfter] using Nat.lt_or_ge n.val k.val

section
variable {start : Option Requester} {b : Requester → Bool} {P : Requester → Prop} (hb : ∀ q, b q = true ↔ P q)
include hb

theorem find?_of_firstAfter {q : Requester} (h : FirstAfter start P q) : (orderAfter start).find? b = some q := by
  obtain ⟨hq, before, rest, horder, hbefore⟩ := h
  rw [orderAfter_eq, List.find?_eq_some_iff_append]
  exact ⟨(hb q).2 hq, before, rest, horder, fun r hr => by simpa using fun hr' => hbefore r hr ((hb r).1 hr')⟩

theorem find?_none (h : ∀ q, ¬P q) : (orderAfter start).find? b = none :=
  List.find?_eq_none.2 fun q _ hq => h q ((hb q).1 hq)

end

/-! ### Which requester is granted -/

section
variable {s : State} {p : Fin 12}

/-- A requester that a guaranteed grant can go to: it waits with a remaining count (R170). -/
theorem promised_iff (q : Requester) : (s.waits p q && decide (1 ≤ s.arbiters[p].leftOf q)) = true ↔
    Waits s p q ∧ 1 ≤ remaining s.arbiters[p] q := by
  rw [Bool.and_eq_true, waits_iff, decide_eq_true_iff, leftOf_eq]

theorem rotation_stays {q : Requester} (hq : s.arbiters[p].holder = some q)
    (h : Waits s p q ∧ s.arbiters[p].burst < s.weightOf p q) : s.rotation p = some (q, s.arbiters[p].burst + 1) := by
  rw [State.rotation, hq]
  exact if_pos ⟨(waits_iff s p q).2 h.1, h.2⟩

/-- Where the holder of the rotation does not stay, the next requester in turn begins a burst (R171). -/
theorem rotation_moves (h : ∀ q, s.arbiters[p].holder = some q → ¬(Waits s p q ∧ s.arbiters[p].burst < s.weightOf p q)) :
    s.rotation p = ((orderAfter s.arbiters[p].holder).find? (s.waits p)).map fun q => (q, 1) := by
  unfold State.rotation
  simp only
  split
  · next q hq => exact if_neg fun ⟨hwaits, hburst⟩ => h q hq ⟨(waits_iff s p q).1 hwaits, hburst⟩
  · rfl

/-! ### The grant -/

/-- The granted message takes the channel, whatever the grant does to the counts of the arbiter (R172). -/
theorem occupy_granted {f g : Arbiter → Arbiter} (hf : f s.arbiters[p] = g s.arbiters[p])
    (hqueue : ∀ a, (f a).queue = a.queue) (q : Requester) : Granted p q g s ((s.modArb p f).occupy p q) := by
  cases q with
  | resp =>
    intro r rest hr
    rw [State.occupy, modArb_modArb]
    have hhead : (g s.arbiters[p]).queue = r :: rest := by rw [← hf, hqueue, hr]
    refine modArb_congr ?_
    simp only [hf, hhead]
  | screen n =>
    intro u hu
    rw [State.occupy, State.modArb_screens, hu]
    simp only [modArb_modArb]
    exact congrArg (State.modNotice · n _) (modArb_congr (by simp only [hf]))

theorem grant_closed (h : s.ports[p].state ≠ .locked ∨ s.arbiters[p].channel ≠ none) : s.grant p = s :=
  if_neg fun ⟨hlocked, hfree⟩ => h.elim (· hlocked) (· hfree)

theorem grant_guaranteed (hopen : s.ports[p].state = .locked ∧ s.arbiters[p].channel = none) {q : Requester}
    (hg : s.guaranteed p = some q) : s.grant p = (s.modArb p (Arbiter.useGuarantee q)).occupy p q := by
  rw [State.grant, if_pos hopen, hg]

theorem grant_rotation (hopen : s.ports[p].state = .locked ∧ s.arbiters[p].channel = none) (hg : s.guaranteed p = none)
    {q : Requester} {burst : Nat} (hr : s.rotation p = some (q, burst)) :
    s.grant p = (s.modArb p fun a => { a with holder := some q, burst }).occupy p q := by
  rw [State.grant, if_pos hopen, hg, hr]

theorem grant_nobody (h : ∀ q, ¬Waits s p q) : s.grant p = s := by
  have hg : s.guaranteed p = none := find?_none promised_iff fun q hq => h q hq.1
  have hr : s.rotation p = none := by
    rw [rotation_moves fun q _ hq => h q hq.1, find?_none (waits_iff s p) h]
    rfl
  rw [State.grant, hg, hr]
  exact ite_self s

end

/-- Settles O52: `guaranteed` and `rotation` find the requester that the statement names, and `occupy_granted` hands it the
channel. -/
theorem arbiterGrantsInTurn : Obligations.ArbiterGrantsInTurn := by
  intro p s hp a promised stays
  have hx : exec (.arbiterGrant p) s = .next (s.grant p) := live_on hp _
  refine ⟨rfl, fun n r hr => ?_, fun h => ?_, fun hlocked hfree => ⟨fun q hq => ?_, fun hnone => ?_⟩⟩
  · rw [State.weightOf, hr]
  · rw [hx]
    obtain h | h | h := h
    · rw [grant_closed (.inl h)]
    · rw [grant_closed (.inr h)]
    · rw [grant_nobody h]
  · refine ⟨_, hx, ?_⟩
    rw [grant_guaranteed ⟨hlocked, hfree⟩ (find?_of_firstAfter promised_iff hq)]
    exact occupy_granted (by cases q <;> rfl) (useGuarantee_queue q) q
  · have hg : s.guaranteed p = none := find?_none promised_iff hnone
    have hgranted {q : Requester} {burst : Nat} (hr : s.rotation p = some (q, burst)) {g : Arbiter → Arbiter}
        (heq : { a with holder := some q, burst } = g a) : ∃ t, exec (.arbiterGrant p) s = .next t ∧ Granted p q g s t := by
      refine ⟨_, hx, ?_⟩
      rw [grant_rotation ⟨hlocked, hfree⟩ hg hr]
      exact occupy_granted (f := fun x => { x with holder := some q, burst }) heq (fun _ => rfl) q
    refine ⟨fun q hq hstays => hgranted (rotation_stays hq hstays) rfl, fun hmoves q hq => hgranted (burst := 1) ?_ rfl⟩
    rw [rotation_moves hmoves, find?_of_firstAfter (waits_iff s p) hq]
    rfl

end Sys2Proof.Machine
end

-- Proofs/NoticeRequests: NOTICE-DONE and NOTICE-ROUTE in its two forms (O33, O34)
section
/-! NOTICE-DONE gives the top entry of a stack back, and NOTICE-ROUTE moves a screen between the orders of the ports or stores a
port's own share (R164, R166, R167, R171, R178). -/

namespace Sys2Proof.Machine

/-! ### NOTICE-DONE -/

/-- The noticed mark that a removed entry clears, said of every alarm id (R164). -/
theorem noticeAgain_eq (e : StackEntry) (m : Monitor) : m.noticeAgain e = { m with
    pending := Vector.ofFn fun id =>
      if e.source = .alarm id ∧ e.level = 0 ∧ m.pending[id].isSome = true then some false else m.pending[id] } := by
  have hstays {flags : Vector (Option Bool) 54} (h : ∀ id : Fin 54, flags[id] = m.pending[id]) : m = { m with pending := flags } := by
    have hflags : flags = m.pending := Vector.ext fun i hi => h ⟨i, hi⟩
    rw [hflags]
  unfold Monitor.noticeAgain
  split
  · next k hk =>
    split
    · next hclears =>
      refine congrArg (fun flags => { m with pending := flags }) (Vector.ext fun i hi => ?_)
      by_cases hik : k.val = i
      · subst hik
        rw [Vector.getElem_set_self, Vector.getElem_ofFn, if_pos ⟨hk, hclears⟩]
      · have hother : ¬e.source = .alarm ⟨i, hi⟩ := fun he => hik (congrArg Fin.val (NoticeSource.alarm.inj (hk.symm.trans he)))
        rw [Vector.getElem_set_ne _ _ hik, Vector.getElem_ofFn, if_neg fun hc => hother hc.1]
        rfl
    · next hkept =>
      refine hstays fun id => (Vector.getElem_ofFn id.isLt).trans (if_neg fun ⟨hsource, hrest⟩ => ?_)
      obtain rfl := NoticeSource.alarm.inj (hk.symm.trans hsource)
      exact hkept hrest
  · next cue hcue => exact hstays fun id => by simp [hcue]

/-- Settles O33: the three answers of the owning block, and `noticeAgain_eq` for the noticed mark. -/
theorem noticeDoneRestoresTheCeiling : Obligations.NoticeDoneRestoresTheCeiling := by
  intro h tag s
  refine under_screen (answerNoticeDone h tag) rfl rfl rfl rfl fun n hn hx => ⟨fun hstack => ?_, fun e rest hstack => ?_⟩
  · have hanswer : answerNoticeDone h tag s = .refuse .state := by rw [answerNoticeDone, onScreen_at hn, hstack]
    rw [hx, outcome_refuse hanswer]
  have hanswer : answerNoticeDone h tag s = if tag = none ∨ tag = some e.tag then
      .done (s.modScreen n fun x => { x with mon := x.mon.noticeAgain e, notice := x.notice.pop e rest }) [e.tag]
      else .refuse .state := by
    rw [answerNoticeDone, onScreen_at hn, hstack]
  refine ⟨fun ⟨w, hw, hne⟩ => ?_, fun htag => ?_⟩
  · have hother : ¬(tag = none ∨ tag = some e.tag) := by simp [hw, hne]
    rw [hx, outcome_refuse (hanswer.trans (if_neg hother))]
  · rw [hx, outcome_done (hanswer.trans (if_pos htag))]
    simp only [noticeAgain_eq, NoticeUnit.pop]

/-! ### NOTICE-ROUTE, screen form -/

/-- A changing request of a screen under the part lock: it is refused while another node holds that lock, and otherwise answered as
its owning block says (R178). -/
theorem screen_under_partLock {c : Instr} {h : ReqHead} {k : ReqKind} {s : State} {body : State → Answer}
    (hx : exec c s = live s fun s => s.request h k body) (hk : k.takesScreen = true) (hc : k.cls = .part) (ht : s.takes h)
    {n : Fin 8} (hn : h.screen.toNat = n.val) :
    (heldByAnother s.partLock h.source → exec c s = .next (s.refusedWith h k .locked)) ∧
    (¬heldByAnother s.partLock h.source → exec c s = .next (outcome s h k body)) := by
  have h8 : ¬8 ≤ h.screen.toNat := by omega
  have h15 : h.screen ≠ 15 := fun he => h8 (by rw [he]; decide)
  have hb : s.refusedBefore h k = if heldAgainst s.partLock h.source then some .locked else none := by
    simp only [State.refusedBefore, State.lockedOut, h8, h15, hk, hc, false_and, and_false, if_false, Bool.true_eq_false]
  refine ⟨fun hl => ?_, fun hl => ?_⟩
  · rw [hx, live_on ht.1, request_refused (takes_can ht) (hb.trans (if_pos ((heldAgainst_iff _ _).2 hl)))]
  · rw [hx, live_on ht.1, request_taken (takes_can ht) (hb.trans (if_neg fun he => hl ((heldAgainst_iff _ _).1 he)))]
    rfl

theorem shareOk_iff (count weight : Nat) : shareOk count weight = true ↔ count ≤ 15 ∧ 1 ≤ weight ∧ weight ≤ 8 :=
  decide_eq_true_iff

theorem routeOf_outOfRange {r : RouteOperand}
    (h : ¬(r.port ≤ 11 ∧ (r.share.getD (1, 1)).1 ≤ 15 ∧ 1 ≤ (r.share.getD (1, 1)).2 ∧ (r.share.getD (1, 1)).2 ≤ 8)) :
    routeOf r = none := by
  unfold routeOf
  split
  · rfl
  · next p hp =>
    have hport := index?_lt hp
    exact if_neg fun hok => h ⟨by omega, (shareOk_iff _ _).1 hok⟩

theorem routeOf_inRange {r : RouteOperand} {y : Route} (hport : y.port.val = r.port) (hnode : y.node = r.node)
    (hcount : y.count = (r.share.getD (1, 1)).1) (hweight : y.weight = (r.share.getD (1, 1)).2)
    (hshare : (r.share.getD (1, 1)).1 ≤ 15 ∧ 1 ≤ (r.share.getD (1, 1)).2 ∧ (r.share.getD (1, 1)).2 ≤ 8) :
    routeOf r = some y := by
  rw [routeOf, ← hport, index?_val]
  refine (if_pos ((shareOk_iff _ _).2 hshare)).trans ?_
  rw [← hnode, ← hcount, ← hweight]

/-- The destination of a route is its port and its node (R166). -/
theorem keepsDestination_iff (old new : Option Route) : keepsDestination old new = true ↔
    (old.map fun y => (y.port, y.node)) = (new.map fun y => (y.port, y.node)) := by
  cases old <;> cases new <;> simp [keepsDestination]

section
variable {s : State} {n : Fin 8} {new : Option Route}

theorem setRoute_kept (h : keepsDestination s.screens[n].ctx.route new = true) :
    s.setRoute n new = s.modCtx n fun c => { c with route := new } := if_pos h

theorem setRoute_moved {old : Option Route} (hold : s.screens[n].ctx.route = old) (h : ¬keepsDestination old new = true) :
    s.setRoute n new =
      ((s.modCtx n fun c => { c with route := new }).modNotice n NoticeUnit.loseWaiting).leaveOldPort n old := by
  subst hold
  exact if_neg h

end

/-- Of the unsent notices only one that waits is lost (R166). -/
theorem loseWaiting_waiting {u : NoticeUnit} (h : ∃ y, u.unsent = some y ∧ y.sending = false) :
    u.loseWaiting = { u with unsent := none, lost := bump u.lost } := by
  obtain ⟨y, hy, hwaits⟩ := h
  simp only [NoticeUnit.loseWaiting, hy, hwaits]
  rfl

theorem loseWaiting_other {u : NoticeUnit} (h : ¬∃ y, u.unsent = some y ∧ y.sending = false) : u.loseWaiting = u := by
  unfold NoticeUnit.loseWaiting
  split
  · next y hy => exact if_pos (eq_true_of_ne_false fun hwaits => h ⟨y, hy, hwaits⟩)
  · rfl

/-- The answer to a screen's NOTICE-ROUTE whose operands are in range sets the route (R166). -/
theorem answerNoticeRouteScreen_set {h : ReqHead} {n : Fin 8} (hn : h.screen.toNat = n.val) {route : Option RouteOperand}
    {new : Option Route} (hnew : route.map routeOf = new.map some) (s : State) :
    answerNoticeRouteScreen h route s = .done (s.setRoute n new) [] := by
  rw [answerNoticeRouteScreen, onScreen_at hn]
  cases route with
  | none =>
    cases new with
    | none => rfl
    | some y => cases hnew
  | some r =>
    cases new with
    | none => cases hnew
    | some y => simp only [Option.some.inj hnew]

/-! ### NOTICE-ROUTE, port form -/

theorem answerNoticeRoutePort_refused {port count weight interval : Nat} {s : State}
    (h : 12 ≤ port ∨ 16 ≤ count ∨ weight = 0 ∨ 9 ≤ weight ∨ interval = 0 ∨ 256 ≤ interval) :
    answerNoticeRoutePort port count weight interval s = .refuse .range := by
  unfold answerNoticeRoutePort onPort
  split
  · next p hp =>
    have hport := index?_lt hp
    refine if_neg fun ⟨hshare, hinterval⟩ => ?_
    rw [shareOk_iff] at hshare
    omega
  · rfl

theorem answerNoticeRoutePort_stored (p : Fin 12) {count weight interval : Nat} {s : State}
    (hshare : count ≤ 15 ∧ 1 ≤ weight ∧ weight ≤ 8) (hinterval : 1 ≤ interval ∧ interval ≤ 255) :
    answerNoticeRoutePort p.val count weight interval s =
      .done (s.modArb p fun a => { a with nextInterval := interval, respCount := count, respWeight := weight }) [] := by
  rw [answerNoticeRoutePort, onPort, index?_val]
  exact if_pos ⟨(shareOk_iff _ _).2 hshare, hinterval⟩

/-- Settles O34: `setRoute` by whether the destination is kept in the screen form, and the two answers of the port form. -/
theorem noticeRoutesAreReplacedAndStored : Obligations.NoticeRoutesAreReplacedAndStored := by
  refine ⟨fun h route s ht n hn => ?_, fun h port count weight interval s => ?_⟩
  · intro x share inRange old loses leaves
    have hloses : loses = NoticeUnit.loseWaiting := funext fun u => by
      simp only [loses]
      split
      · next hwaits => exact (loseWaiting_waiting hwaits).symm
      · next hother => exact (loseWaiting_other hother).symm
    obtain ⟨hlocked, hreaches⟩ := screen_under_partLock (c := x) (body := answerNoticeRouteScreen h route) rfl rfl rfl ht hn
    refine ⟨hlocked, fun hl => ⟨fun r hr hbad => ?_, fun new hnew => ?_⟩⟩
    · have hanswer : answerNoticeRouteScreen h route s = .refuse .range := by
        rw [answerNoticeRouteScreen, onScreen_at hn, hr]
        simp only [routeOf_outOfRange hbad]
      rw [hreaches hl, outcome_refuse hanswer]
    have hroute : route.map routeOf = new.map some := by
      obtain ⟨rfl, rfl⟩ | ⟨r, y, rfl, rfl, ⟨-, hshare⟩, hport, hnode, hcount, hweight⟩ := hnew
      · rfl
      · exact congrArg some (routeOf_inRange hport hnode hcount hweight hshare)
    rw [hreaches hl, outcome_done (answerNoticeRouteScreen_set hn hroute s), hloses]
    intro t
    refine ⟨fun hsame => ?_, fun hdiffer => ?_⟩
    · rw [setRoute_kept ((keepsDestination_iff _ _).2 hsame)]
    · have hmoves {y : Option Route} (hold : old = y) :=
        setRoute_moved (s := s) hold fun hkeeps => hdiffer ((keepsDestination_iff _ _).1 (hold ▸ hkeeps))
      exact ⟨fun hold => by rw [hmoves hold]; rfl, fun y hold => by rw [hmoves hold]; rfl⟩
  · refine under_part (answerNoticeRoutePort port count weight interval) rfl rfl rfl (.inl rfl) fun _ hx =>
      ⟨fun hbad => ?_, fun p hport hcount hleast hmost hone h255 => ?_⟩
    · rw [hx, outcome_refuse (answerNoticeRoutePort_refused hbad)]
    · subst hport
      rw [hx, outcome_done (answerNoticeRoutePort_stored p ⟨hcount, hleast, hmost⟩ ⟨hone, h255⟩)]

end Sys2Proof.Machine
end

-- Proofs/NoticeChoice: the choice of a notice and its message (O54)
section
/-! The model goes through the alarm ids in order and keeps the better of two; the statement names the candidate that goes before
every other. `candidate_iff` says that these are one (R161, R162). -/

namespace Sys2Proof.Machine

/-! ### The alarm candidate -/

section
variable {x : Screen}

/-- An alarm that qualifies does so at the level of its class (R161). -/
theorem qualifies_alarm_iff (id : Fin 54) (lv : Nat) : Qualifies x (.alarm id) lv ↔ lv = x.mon.levelOf id ∧
    x.mon.pending[id] = some false ∧ qualifies x.notice.ceiling (x.mon.levelOf id) = true := by
  rw [qualifies_iff]
  refine ⟨fun ⟨⟨hpending, hlevel⟩, hlow⟩ => ?_, fun ⟨hlevel, hpending, hlow⟩ => ⟨⟨hpending, hlevel.symm⟩, hlevel ▸ hlow⟩⟩
  subst hlevel
  exact ⟨rfl, hpending, hlow⟩

/-- One comparison of the search for the alarm candidate: an earlier id stays unless the later one has a lower level (R162). -/
def Screen.betterAlarm (x : Screen) (best : Option (Fin 54)) (id : Fin 54) : Option (Fin 54) :=
  if x.mon.pending[id] = some false ∧ qualifies x.notice.ceiling (x.mon.levelOf id) = true then
    match best with
    | none => some id
    | some k => if x.mon.levelOf id < x.mon.levelOf k then some id else some k
  else best

theorem alarmCandidate_eq : x.alarmCandidate = (List.finRange 54).foldl x.betterAlarm none := rfl

/-- `best` is the qualifying alarm of lowest level and then lowest id among `ids`, or none where none qualifies (R162). -/
def BestAlarm (x : Screen) (ids : List (Fin 54)) (best : Option (Fin 54)) : Prop :=
  match best with
  | none => ∀ id ∈ ids, ∀ lv, ¬Qualifies x (.alarm id) lv
  | some k => k ∈ ids ∧ Qualifies x (.alarm k) (x.mon.levelOf k) ∧ ∀ id ∈ ids, ∀ lv, Qualifies x (.alarm id) lv →
      x.mon.levelOf k < lv ∨ (x.mon.levelOf k = lv ∧ k.val ≤ id.val)

section
variable {ids : List (Fin 54)} {a : Fin 54}

theorem bestAlarm_skips {best : Option (Fin 54)} (h : BestAlarm x ids best) (ha : ∀ lv, ¬Qualifies x (.alarm a) lv) :
    BestAlarm x (ids ++ [a]) best := by
  cases best with
  | none => exact List.forall_mem_append.2 ⟨h, List.forall_mem_singleton.2 ha⟩
  | some k =>
    obtain ⟨hmem, hk, hfirst⟩ := h
    exact ⟨List.mem_append_left _ hmem, hk, List.forall_mem_append.2
      ⟨hfirst, List.forall_mem_singleton.2 fun lv hlv => absurd hlv (ha lv)⟩⟩

theorem bestAlarm_takes (ha : Qualifies x (.alarm a) (x.mon.levelOf a))
    (hlower : ∀ id ∈ ids, ∀ lv, Qualifies x (.alarm id) lv → x.mon.levelOf a < lv) : BestAlarm x (ids ++ [a]) (some a) :=
  ⟨List.mem_append_right _ (List.mem_singleton.2 rfl), ha, List.forall_mem_append.2
    ⟨fun id hid lv hlv => .inl (hlower id hid lv hlv), List.forall_mem_singleton.2 fun lv hlv =>
      .inr ⟨((qualifies_alarm_iff a lv).1 hlv).1.symm, Nat.le_refl _⟩⟩⟩

theorem bestAlarm_keeps {k : Fin 54} (h : BestAlarm x ids (some k)) (hafter : k.val < a.val)
    (hlevel : x.mon.levelOf k ≤ x.mon.levelOf a) : BestAlarm x (ids ++ [a]) (some k) := by
  obtain ⟨hmem, hk, hfirst⟩ := h
  refine ⟨List.mem_append_left _ hmem, hk, List.forall_mem_append.2 ⟨hfirst, List.forall_mem_singleton.2 fun lv hlv => ?_⟩⟩
  have hself := ((qualifies_alarm_iff a lv).1 hlv).1
  omega

/-- One comparison keeps the best alarm, where the new id is above those before it. -/
theorem betterAlarm_best {best : Option (Fin 54)} (h : BestAlarm x ids best) (ha : ∀ id ∈ ids, id.val < a.val) :
    BestAlarm x (ids ++ [a]) (x.betterAlarm best a) := by
  unfold Screen.betterAlarm
  split
  · next hq =>
    have hqual : Qualifies x (.alarm a) (x.mon.levelOf a) := (qualifies_alarm_iff a _).2 ⟨rfl, hq⟩
    cases best with
    | none => exact bestAlarm_takes hqual fun id hid lv hlv => absurd hlv (h id hid lv)
    | some k =>
      simp only
      split
      · next hless =>
        refine bestAlarm_takes hqual fun id hid lv hlv => ?_
        obtain ⟨-, -, hfirst⟩ := h
        have hk := hfirst id hid lv hlv
        omega
      · next hmore => exact bestAlarm_keeps h (ha k h.1) (Nat.not_lt.1 hmore)
  · next hq => exact bestAlarm_skips h fun lv hlv => hq ((qualifies_alarm_iff a lv).1 hlv).2

end

theorem foldl_betterAlarm_best (ids : List (Fin 54)) (hsorted : ids.Pairwise (· < ·)) :
    BestAlarm x ids (ids.foldl x.betterAlarm none) := by
  induction ids using List.reverseRecOn with
  | nil => exact fun id hid => absurd hid List.not_mem_nil
  | append_singleton ids a ih =>
    obtain ⟨hids, -, hlast⟩ := List.pairwise_append.1 hsorted
    rw [List.foldl_append]
    exact betterAlarm_best (ih hids) fun id hid => hlast id hid a (List.mem_singleton.2 rfl)

theorem alarmCandidate_best : BestAlarm x (List.finRange 54) x.alarmCandidate :=
  foldl_betterAlarm_best _ (List.sortedLT_finRange 54).pairwise

theorem alarmCandidate_none (h : x.alarmCandidate = none) (id : Fin 54) (lv : Nat) : ¬Qualifies x (.alarm id) lv := by
  have hbest := alarmCandidate_best (x := x)
  rw [h] at hbest
  exact hbest id (List.mem_finRange id) lv

theorem alarmCandidate_some {k : Fin 54} (h : x.alarmCandidate = some k) : Qualifies x (.alarm k) (x.mon.levelOf k) ∧
    ∀ id lv, Qualifies x (.alarm id) lv → x.mon.levelOf k < lv ∨ (x.mon.levelOf k = lv ∧ k.val ≤ id.val) := by
  have hbest := alarmCandidate_best (x := x)
  rw [h] at hbest
  obtain ⟨-, hk, hfirst⟩ := hbest
  exact ⟨hk, fun id => hfirst id (List.mem_finRange id)⟩

/-! ### The mark candidate -/

/-- The mark that qualifies is the head of the queue (R161). -/
theorem qualifies_mark_iff (cue lv : Nat) : Qualifies x (.mark cue) lv ↔ x.markCandidate = some { cue, level := lv } := by
  have hiff : Qualifies x (.mark cue) lv ↔
      (∃ rest, x.mon.marks = { cue, level := lv } :: rest) ∧ qualifies x.notice.ceiling lv = true := by
    rw [qualifies_iff]
    rfl
  rw [hiff, Screen.markCandidate]
  cases x.mon.marks with
  | nil => simp
  | cons m rest =>
    simp only [List.cons.injEq, exists_and_left, exists_eq', and_true, Option.ite_none_right_eq_some, Option.some.injEq]
    constructor
    · rintro ⟨rfl, hq⟩
      exact ⟨hq, rfl⟩
    · rintro ⟨hq, rfl⟩
      exact ⟨rfl, hq⟩

theorem markCandidate_some {m : Mark} (h : x.markCandidate = some m) : Qualifies x (.mark m.cue) m.level ∧
    ∀ cue lv, Qualifies x (.mark cue) lv → m = { cue, level := lv } :=
  ⟨(qualifies_mark_iff _ _).2 h, fun cue lv hq => Option.some.inj (h.symm.trans ((qualifies_mark_iff cue lv).1 hq))⟩

theorem markCandidate_none (h : x.markCandidate = none) (cue lv : Nat) : ¬Qualifies x (.mark cue) lv := fun hq => by
  rw [qualifies_mark_iff, h] at hq
  cases hq

/-! ### The candidate taken -/

theorem candidate_none (h : x.candidate = none) (src : NoticeSource) (lv : Nat) : ¬Qualifies x src lv := by
  unfold Screen.candidate at h
  split at h
  · split at h <;> cases h
  · cases h
  · cases h
  · next ha hm =>
    cases src with
    | alarm id => exact alarmCandidate_none ha id lv
    | mark cue => exact markCandidate_none hm cue lv

theorem candidate_chosen {src : NoticeSource} {lv : Nat} (h : x.candidate = some (src, lv)) : Chosen x src lv := by
  unfold Screen.candidate at h
  split at h
  · next id m ha hm =>
    obtain ⟨hid, hfirst⟩ := alarmCandidate_some ha
    obtain ⟨hmark, honly⟩ := markCandidate_some hm
    split at h
    · next hle =>
      cases h
      refine ⟨hid, fun src' lv' hq => ?_⟩
      cases src' with
      | alarm k => exact hfirst k lv' hq
      | mark cue =>
        obtain rfl := honly cue lv' hq
        exact (Nat.lt_or_eq_of_le hle).imp_right fun he => ⟨he, trivial⟩
    · next hlt =>
      cases h
      refine ⟨hmark, fun src' lv' hq => ?_⟩
      cases src' with
      | alarm k =>
        have := hfirst k lv' hq
        exact .inl (by omega)
      | mark cue =>
        obtain rfl := honly cue lv' hq
        exact .inr ⟨rfl, trivial⟩
  · next id ha hm =>
    cases h
    obtain ⟨hid, hfirst⟩ := alarmCandidate_some ha
    refine ⟨hid, fun src' lv' hq => ?_⟩
    cases src' with
    | alarm k => exact hfirst k lv' hq
    | mark cue => exact absurd hq (markCandidate_none hm cue lv')
  · next m ha hm =>
    cases h
    obtain ⟨hmark, honly⟩ := markCandidate_some hm
    refine ⟨hmark, fun src' lv' hq => ?_⟩
    cases src' with
    | alarm k => exact absurd hq (alarmCandidate_none ha k lv')
    | mark cue =>
      obtain rfl := honly cue lv' hq
      exact .inr ⟨rfl, trivial⟩
  · cases h

/-- Two candidates of which each goes before every other are one (R162). -/
theorem chosen_unique {src src' : NoticeSource} {lv lv' : Nat} (h : Chosen x src lv) (h' : Chosen x src' lv') :
    src = src' ∧ lv = lv' := by
  obtain ⟨hq, hfirst⟩ := h
  obtain ⟨hq', hfirst'⟩ := h'
  have hle := hfirst src' lv' hq'
  have hge := hfirst' src lv hq
  obtain ⟨rfl, hbefore, hafter⟩ : lv = lv' ∧ GoesBefore src src' ∧ GoesBefore src' src := by
    obtain hlt | ⟨heq, hbefore⟩ := hle
    · omega
    · obtain hlt | ⟨-, hafter⟩ := hge
      · omega
      · exact ⟨heq, hbefore, hafter⟩
  refine ⟨?_, rfl⟩
  cases src with
  | alarm a =>
    cases src' with
    | alarm b => exact congrArg _ (Fin.ext (Nat.le_antisymm hbefore hafter))
    | mark _ => exact hafter.elim
  | mark cue =>
    cases src' with
    | alarm _ => exact hbefore.elim
    | mark cue' =>
      rw [qualifies_mark_iff] at hq hq'
      exact congrArg (NoticeSource.mark ·.cue) (Option.some.inj (hq.symm.trans hq'))

theorem candidate_iff (src : NoticeSource) (lv : Nat) : x.candidate = some (src, lv) ↔ Chosen x src lv := by
  refine ⟨candidate_chosen, fun h => ?_⟩
  cases hc : x.candidate with
  | none => exact absurd h.1 (candidate_none hc src lv)
  | some taken =>
    obtain ⟨hsrc, hlv⟩ := chosen_unique (candidate_chosen hc) h
    exact congrArg some (Prod.ext hsrc hlv)

end

/-! ### The notice message -/

/-- A 32-bit quantity's words, high word first, as numbers (R193). -/
theorem longWords_eq (q : Long) : longWords q = [BitVec.ofNat 16 (q.toNat / 65536), BitVec.ofNat 16 q.toNat] := by
  have hhigh : q.extractLsb' 16 16 = BitVec.ofNat 16 (q.toNat / 65536) :=
    BitVec.eq_of_toNat_eq (by simp [BitVec.extractLsb'_toNat, Nat.shiftRight_eq_div_pow])
  have hlow : q.extractLsb' 0 16 = BitVec.ofNat 16 q.toNat := BitVec.eq_of_toNat_eq (by simp [BitVec.extractLsb'_toNat])
  rw [longWords, hhigh, hlow]

theorem kindWord_notice (n : Fin 8) : kindWord false noticeKind (screenBits n) = BitVec.ofNat 16 (64 * 16 + n.val) := by
  revert n
  decide

theorem lastPositionWords_eq (o : Option Long) : optWords longWords o = match o with
    | some q => [0, BitVec.ofNat 16 (q.toNat / 65536), BitVec.ofNat 16 q.toNat]
    | none => [1] := by
  cases o with
  | none => rfl
  | some q => exact congrArg (List.cons 0) (longWords_eq q)

/-! ### The choice -/

section
variable {s : State} {n : Fin 8}

theorem choose_nothing (h : s.screens[n].ctx.route = none ∨ s.screens[n].notice.unsent ≠ none ∨ s.screens[n].candidate = none) :
    s.choose n = s := by
  unfold State.choose
  simp only
  split
  · next route src level hroute hunsent hcandidate =>
    rw [hroute, hunsent, hcandidate] at h
    simp at h
  · rfl

theorem choose_takes {route : Route} {src : NoticeSource} {lv : Nat} (hroute : s.screens[n].ctx.route = some route)
    (hunsent : s.screens[n].notice.unsent = none) (hcandidate : s.screens[n].candidate = some (src, lv)) :
    s.choose n = s.modScreen n fun x =>
      { x with mon := x.mon.noticed src, notice := x.notice.push src lv (s.noticeWords n route src lv) } := by
  simp only [State.choose]
  rw [hroute, hunsent, hcandidate]

end

/-- Settles O54: the candidate that the model takes is the chosen one by `candidate_iff`; the message is the model's own, with its
words as numbers. -/
theorem noticeChoiceTakesTheLowestLevel : Obligations.NoticeChoiceTakesTheLowestLevel := by
  intro n s hp x
  have hx : exec (.noticeChoice n) s = .next (s.choose n) := live_on hp _
  refine ⟨fun h => ?_, fun route src lv hroute hunsent hchosen => ⟨?_, _, rfl, ?_⟩⟩
  · rw [hx, choose_nothing (h.imp_right (Or.imp_right fun hnone => ?_))]
    refine Option.eq_none_iff_forall_ne_some.2 fun taken htaken => ?_
    exact hnone taken.1 taken.2 (candidate_chosen htaken).1
  · rw [hx, choose_takes hroute hunsent ((candidate_iff src lv).2 hchosen)]
    cases src <;> rfl
  · rw [kindWord_notice, noticePayload.eq_def, longWords_eq, lastPositionWords_eq]
    cases src <;> rfl

end Sys2Proof.Machine
end

-- Proofs/RequestChecks: the checks before a request's block (O6), the response (O7), PART-RESET and unknown requests (O12)
section
/-! Every request of the catalogue is `State.request` with its kind (`exec_request`), so R176 to R178 are settled once, on
`State.request`. `refusedBefore` is read by the form that the screen number gives a request: none, one that its kind has not, or one
that it has. -/

namespace Sys2Proof.Machine

/-- A request's screen number gives a form that its kind has (section 9.6). -/
def HasForm (h : ReqHead) (k : ReqKind) : Prop :=
  (h.screen.toNat < 8 ∧ k.takesScreen = true) ∨ (h.screen = 15 ∧ k.takesPart = true)

/-! ### Screen number, form and lock -/

section
variable {h : ReqHead} {k : ReqKind} {s : State}

/-- A screen number of 8 to 14 names nothing (R177). -/
theorem refusedBefore_unknown (h8 : 8 ≤ h.screen.toNat) (h14 : h.screen.toNat ≤ 14) : s.refusedBefore h k = some .unknown :=
  if_pos ⟨h8, h14⟩

/-- The number of a screen is not the part's. -/
theorem screen_ne_part (hn : h.screen.toNat < 8) : h.screen ≠ 15 := by
  intro h15
  rw [h15] at hn
  exact absurd hn (by decide)

/-- A screen number that the kind has no form for is out of range (R177). -/
theorem refusedBefore_range (hf : (h.screen.toNat < 8 ∧ k.takesScreen = false) ∨ (h.screen = 15 ∧ k.takesPart = false)) :
    s.refusedBefore h k = some .range := by
  rcases hf with ⟨hn, hk⟩ | ⟨h15, hk⟩
  · have h15 := screen_ne_part hn
    rw [State.refusedBefore, if_neg (by omega), if_neg fun hp => h15 hp.1, if_pos ⟨h15, hk⟩]
  · rw [State.refusedBefore, if_neg (by rw [h15]; decide), if_pos ⟨h15, hk⟩]

/-- In a form that the kind has, the lock alone is left to check (R177, R178). -/
theorem refusedBefore_hasForm (hf : HasForm h k) :
    s.refusedBefore h k = if s.lockedOut h k.cls then some .locked else none := by
  rcases hf with ⟨hn, hk⟩ | ⟨h15, hk⟩
  · have h15 := screen_ne_part hn
    rw [State.refusedBefore, if_neg (by omega), if_neg fun hp => h15 hp.1, if_neg (by simp [hk])]
  · rw [State.refusedBefore, if_neg (by rw [h15]; decide), if_neg (by simp [hk]), if_neg fun hs => hs.1 h15]

/-- Another node's screen lock stands against the requests of class SCREEN (R178). -/
theorem lockedOut_screen {n : Fin 8} (hn : h.screen.toNat = n.val) (hk : k.cls = .screen)
    (hl : heldByAnother s.screenLocks[n] h.source) : s.lockedOut h k.cls = true := by
  rw [hk, State.lockedOut, lockHolder_screen s hn]
  exact (heldAgainst_iff _ _).2 hl

/-- Another node's part lock stands against the requests of class PART and RESET (R178). -/
theorem lockedOut_part (hk : k.cls = .part ∨ k.cls = .reset) (hl : heldByAnother s.partLock h.source) :
    s.lockedOut h k.cls = true := by
  rcases hk with hk | hk <;> rw [hk] <;> exact (heldAgainst_iff _ _).2 hl

/-! ### The words of a refusal -/

/-- The requests on locks have both forms (section 9.6). -/
theorem forms_of_lock (hk : k.cls = .lock) : k.takesScreen = true ∧ k.takesPart = true := by
  cases k with
  | lockTake | lockFree => exact ⟨rfl, rfl⟩
  | _ => cases hk

/-- A refusal carries its code alone, but for a request on a lock (R180). -/
theorem refusedWith_code {code : RefusalCode} (hk : k.cls ≠ .lock ∨ code = .unknown) :
    s.refusedWith h k code = s.place h k.number [code.word] false := by
  have hno : ¬(k.cls = .lock ∧ code ≠ .unknown) := fun ⟨hlock, hknown⟩ => hk.elim (· hlock) hknown
  rw [State.refusedWith, State.refusalPayload, if_neg hno]

/-- A refusal of a request on a lock carries the holder after its code (R182, R183, R184). -/
theorem refusedWith_holder {code : RefusalCode} (hk : k.cls = .lock) (hc : code ≠ .unknown) :
    s.refusedWith h k code = s.place h k.number [code.word, nodeWord (s.lockHolder h.screen)] false := by
  rw [State.refusedWith, State.refusalPayload, if_pos ⟨hk, hc⟩]

/-! ### Taking -/

/-- With a reset pending, or with a full response queue, no message is taken (R176). -/
theorem canTake_false (hno : s.resetPending ≠ none ∨ 4 ≤ s.arbiters[h.port].queue.length) : s.canTake h.port = false := by
  refine Bool.eq_false_iff.2 fun ht => ?_
  obtain ⟨hreset, hroom⟩ := (canTake_iff _ _).1 ht
  exact hno.elim (· hreset) (by omega)

/-- A taken request in a form that its kind has, with no lock against it, is answered as its owning block says (R176 to R178). -/
theorem exec_reaches_block {c : Instr} {body : State → Answer} (hx : exec c s = live s fun s => s.request h k body)
    (ht : s.takes h) (hf : HasForm h k) (hl : s.lockedOut h k.cls = false) : exec c s = .next (outcome s h k body) := by
  have hb : s.refusedBefore h k = none := by rw [refusedBefore_hasForm hf, hl]; rfl
  rw [hx, live_on ht.1, request_taken (takes_can ht) hb]
  rfl

end

/-- Every request of the catalogue comes to the service unit with the head and the kind it carries (section 9.6). -/
theorem exec_request {c : Instr} {h : ReqHead} {k : ReqKind} (hc : requestOf c = some (h, k)) :
    ∃ body : State → Answer, ∀ s, exec c s = live s fun s => s.request h k body := by
  cases c <;> cases hc <;> exact ⟨_, fun _ => rfl⟩

/-- Settles O6: by `exec_request` the checks are those of `State.request`, one lemma of `refusedBefore` for each. -/
theorem requestsAreCheckedBeforeTheirBlock : Obligations.RequestsAreCheckedBeforeTheirBlock := by
  intro c h k s hc hp
  obtain ⟨body, hx⟩ := exec_request hc
  have hx : exec c s = .next (s.request h k body) := (hx s).trans (live_on hp _)
  refine ⟨fun hno => ?_, fun ht => ?_⟩
  · rw [hx, request_discarded (canTake_false hno)]
    rfl
  have refused {code : RefusalCode} (hb : s.refusedBefore h k = some code) (hk : k.cls ≠ .lock ∨ code = .unknown) :
      exec c s = .next (s.place h k.number [code.word] false) := by
    rw [hx, request_refused (takes_can ht) hb, refusedWith_code hk]
  have locked (hf : HasForm h k) (hk : k.cls ≠ .lock) (hl : s.lockedOut h k.cls = true) :
      exec c s = .next (s.place h k.number [1] false) :=
    refused ((refusedBefore_hasForm hf).trans (if_pos hl)) (.inl hk)
  refine ⟨fun h8 h14 => refused (refusedBefore_unknown h8 h14) (.inr rfl), fun hf => ?_, fun n hn hk hcls hl => ?_,
    fun hf hcls hl => ?_⟩
  · refine refused (refusedBefore_range hf) (.inl fun hlock => ?_)
    obtain ⟨hscreen, hpart⟩ := forms_of_lock hlock
    simp [hscreen, hpart] at hf
  · exact locked (.inl ⟨by omega, hk⟩) (by simp [hcls]) (lockedOut_screen hn hcls hl)
  · exact locked hf (by rcases hcls with hcls | hcls <;> simp [hcls]) (lockedOut_part hcls hl)

/-! ### The response -/

/-- The words of a response: those of a message from the part to the source node, with the response mark set (R180, R193). -/
theorem responseWords_eq (s : State) (h : ReqHead) (kind : BitVec 11) (payload : List Word) :
    let words := (h.source ++ s.node) :: ((1#1) ++ kind ++ h.screen) :: h.tag :: payload
    s.responseWords h kind payload = words ++ [messageCheck words] := rfl

/-- Settles O7: a placing changes one arbiter's queue, and `responseWords_eq` gives the words. -/
theorem responseStandsAtTheTail : Obligations.ResponseStandsAtTheTail := by
  intro s h kind payload r words
  rw [State.place, State.modArb, responseWords_eq]

/-! ### PART-RESET and unknown requests -/

section
variable {h : ReqHead} {kind : BitVec 11} {response : Bool} {s : State}

theorem exec_unknownRequest (hp : s.powered = true) :
    exec (.unknownRequest h kind response) s = .next (s.requestUnknown h kind) :=
  live_on hp (State.requestUnknown · h kind)

theorem unknownRequest_taken (ht : s.takes h) :
    exec (.unknownRequest h kind response) s = .next (s.place h kind [6] false) := by
  rw [exec_unknownRequest ht.1, State.requestUnknown, if_pos (takes_can ht)]
  rfl

theorem unknownRequest_discarded (hp : s.powered = true)
    (hno : s.resetPending ≠ none ∨ 4 ≤ s.arbiters[h.port].queue.length) :
    exec (.unknownRequest h kind response) s = .next (s.discardRequest h.port) := by
  rw [exec_unknownRequest hp, State.requestUnknown, canTake_false hno]
  rfl

end

/-- Settles O12: PART-RESET passes the checks of a class RESET request (`under_part`), an unknown request that of R176 alone. -/
theorem partResetPendsAndUnknownRequestsAreRefused : Obligations.PartResetPendsAndUnknownRequestsAreRefused :=
  ⟨fun h _ => under_part (answerPartReset h) rfl rfl rfl (.inr rfl) fun _ hx => hx.trans (congrArg _ (outcome_done rfl)),
    fun _ _ _ _ hp => ⟨unknownRequest_taken, unknownRequest_discarded hp⟩⟩

end Sys2Proof.Machine
end

-- Proofs/EditLocks: LOCK-TAKE and LOCK-FREE (O9 to O11)
section
/-! The answers of the two requests are given for the lock that the screen number names, whichever it is (`lockHolder`, `setLock`,
`darkFor`); what these are for a screen's number and for 15 is said apart from them. -/

namespace Sys2Proof.Machine

/-! ### The lock that a screen number names -/

section
variable {screen : BitVec 4} {n : Fin 8} (hn : screen.toNat = n.val)
include hn

theorem setLock_screen (s : State) (holder : Byte) :
    s.setLock screen holder = { s with screenLocks := s.screenLocks.set n.val holder } := by
  rw [State.setLock, hn, index?_val]

/-- A screen's lock concerns that screen alone (R184). -/
theorem darkFor_screen (s : State) : s.darkFor screen = true ↔ s.screens[n].ctx.state = .dark := by
  rw [State.darkFor, hn, index?_val, beq_iff_eq]

end

theorem setLock_part (s : State) (holder : Byte) : s.setLock 15 holder = { s with partLock := holder } := rfl

/-- The part lock concerns all eight screens (R184). -/
theorem darkFor_part (s : State) : s.darkFor 15 = true ↔ ∀ n : Fin 8, s.screens[n].ctx.state = .dark := by
  simp [State.darkFor, index?]

/-! ### The answers -/

section
variable {h : ReqHead} {s : State}

/-- The lock check of the model is the condition of the statements (R178). -/
theorem heldAgainst_eq_false {holder source : Byte} : heldAgainst holder source = false ↔ ¬heldByAnother holder source := by
  rw [heldByAnother, ← heldAgainst_iff, Bool.not_eq_true]

/-- LOCK-FREE, forced or not, frees a free or own lock (R183, R184). -/
theorem answerLockFree_own (force : Bool) (hl : ¬heldByAnother (s.lockHolder h.screen) h.source) :
    answerLockFree h force s = .done (s.setLock h.screen 0) [nodeWord (s.lockHolder h.screen)] := by
  rw [answerLockFree, heldAgainst_eq_false.2 hl]
  rfl

/-- LOCK-FREE without force leaves another node's lock; a forced one goes by the screens that the lock concerns (R183, R184). -/
theorem answerLockFree_held (force : Bool) (hl : heldByAnother (s.lockHolder h.screen) h.source) : answerLockFree h force s =
    if force then
      if s.darkFor h.screen then .done (s.setLock h.screen 0) [nodeWord (s.lockHolder h.screen)] else .refuse .state
    else .refuse .locked :=
  if_pos ((heldAgainst_iff _ _).2 hl)

variable (ht : s.takes h) (hform : h.screen.toNat < 8 ∨ h.screen = 15)
include ht hform

section
variable {c : Instr} {k : ReqKind} {body : State → Answer} (hx : exec c s = live s fun s => s.request h k body)
  (hk : k.cls = .lock)
include hx hk

/-- A taken request on a lock, of a screen or of the part, reaches its owning block: no lock is checked for it (R178). -/
theorem exec_lockRequest : exec c s = .next (outcome s h k body) := by
  obtain ⟨hscreen, hpart⟩ := forms_of_lock hk
  exact exec_reaches_block hx ht (hform.imp (⟨·, hscreen⟩) (⟨·, hpart⟩)) (by rw [hk]; rfl)

theorem exec_lockRequest_refused {code : RefusalCode} (hb : body s = .refuse code) (hc : code ≠ .unknown) :
    exec c s = .next (s.place h k.number [code.word, nodeWord (s.lockHolder h.screen)] false) := by
  rw [exec_lockRequest ht hform hx hk, outcome_refuse hb, refusedWith_holder hk hc]

theorem exec_lockRequest_done {t : State} {items : List Word} (hb : body s = .done t items) :
    exec c s = .next (t.answered h k items) := by
  rw [exec_lockRequest ht hform hx hk, outcome_done hb]

end

/-- LOCK-TAKE from node 0 is out of range (R182). -/
theorem lockTake_nodeZero (h0 : h.source = 0) :
    exec (.lockTake h) s = .next (s.place h 3 [2, nodeWord (s.lockHolder h.screen)] false) :=
  exec_lockRequest_refused (k := .lockTake) (body := answerLockTake h) (code := .range) ht hform rfl rfl (if_pos h0) (by decide)

/-- LOCK-TAKE of another node's lock leaves it (R182). -/
theorem lockTake_held (h0 : h.source ≠ 0) (hl : heldByAnother (s.lockHolder h.screen) h.source) :
    exec (.lockTake h) s = .next (s.place h 3 [1, nodeWord (s.lockHolder h.screen)] false) :=
  exec_lockRequest_refused (k := .lockTake) (body := answerLockTake h) (code := .locked) ht hform rfl rfl
    ((if_neg h0).trans (if_pos ((heldAgainst_iff _ _).2 hl))) (by decide)

/-- LOCK-TAKE of a free or own lock gives it to the source node (R182). -/
theorem lockTake_given (h0 : h.source ≠ 0) (hl : ¬heldByAnother (s.lockHolder h.screen) h.source) :
    exec (.lockTake h) s = .next ((s.setLock h.screen h.source).place h 3 [0, nodeWord h.source] false) :=
  exec_lockRequest_done (k := .lockTake) (body := answerLockTake h) ht hform rfl rfl
    ((if_neg h0).trans (if_neg (mt (heldAgainst_iff _ _).1 hl)))

theorem lockFree_own (force : Bool) (hl : ¬heldByAnother (s.lockHolder h.screen) h.source) :
    exec (.lockFree h force) s =
      .next ((s.setLock h.screen 0).place h 4 [0, nodeWord (s.lockHolder h.screen)] false) :=
  exec_lockRequest_done (k := .lockFree) (body := answerLockFree h force) ht hform rfl rfl (answerLockFree_own force hl)

theorem lockFree_held (hl : heldByAnother (s.lockHolder h.screen) h.source) :
    exec (.lockFree h false) s = .next (s.place h 4 [1, nodeWord (s.lockHolder h.screen)] false) :=
  exec_lockRequest_refused (k := .lockFree) (body := answerLockFree h false) (code := .locked) ht hform rfl rfl
    (answerLockFree_held false hl) (by decide)

theorem lockFree_forced_refused (hl : heldByAnother (s.lockHolder h.screen) h.source) (hd : ¬s.darkFor h.screen = true) :
    exec (.lockFree h true) s = .next (s.place h 4 [4, nodeWord (s.lockHolder h.screen)] false) :=
  exec_lockRequest_refused (k := .lockFree) (body := answerLockFree h true) (code := .state) ht hform rfl rfl
    ((answerLockFree_held true hl).trans (if_neg hd)) (by decide)

/-- A forced LOCK-FREE frees the lock where it is free, own, or concerns DARK screens alone (R184). -/
theorem lockFree_forced_freed (hd : heldByAnother (s.lockHolder h.screen) h.source → s.darkFor h.screen = true) :
    exec (.lockFree h true) s =
      .next ((s.setLock h.screen 0).place h 4 [0, nodeWord (s.lockHolder h.screen)] false) := by
  by_cases hl : heldByAnother (s.lockHolder h.screen) h.source
  · exact exec_lockRequest_done (k := .lockFree) (body := answerLockFree h true) ht hform rfl rfl
      ((answerLockFree_held true hl).trans (if_pos (hd hl)))
  · exact lockFree_own ht hform true hl

end

/-! ### The statements -/

/-- Settles O9: the same three answers for a screen's lock and for the part lock. -/
theorem lockTakeGivesTheLockOrItsHolder : Obligations.LockTakeGivesTheLockOrItsHolder := by
  intro h s ht
  refine ⟨fun n hn => ?_, fun h15 => ?_⟩
  · have hform : h.screen.toNat < 8 ∨ h.screen = 15 := .inl (by omega)
    rw [← lockHolder_screen s hn, ← setLock_screen hn]
    exact ⟨lockTake_nodeZero ht hform, lockTake_held ht hform, lockTake_given ht hform⟩
  · have hform : h.screen.toNat < 8 ∨ h.screen = 15 := .inr h15
    rw [← lockHolder_part s, ← setLock_part, ← h15]
    exact ⟨lockTake_nodeZero ht hform, lockTake_held ht hform, lockTake_given ht hform⟩

/-- Settles O10: the same two answers for a screen's lock and for the part lock. -/
theorem lockFreeFreesTheHoldersOwnLock : Obligations.LockFreeFreesTheHoldersOwnLock := by
  intro h s ht
  refine ⟨fun n hn => ?_, fun h15 => ?_⟩
  · have hform : h.screen.toNat < 8 ∨ h.screen = 15 := .inl (by omega)
    rw [← lockHolder_screen s hn, ← setLock_screen hn]
    exact ⟨lockFree_held ht hform, lockFree_own ht hform false⟩
  · have hform : h.screen.toNat < 8 ∨ h.screen = 15 := .inr h15
    rw [← lockHolder_part s, ← setLock_part, ← h15]
    exact ⟨lockFree_held ht hform, lockFree_own ht hform false⟩

/-- Settles O11: the same two answers for both, with `darkFor` read for each. -/
theorem forcedLockFreeNeedsDark : Obligations.ForcedLockFreeNeedsDark := by
  intro h s ht
  refine ⟨fun n hn => ?_, fun h15 => ?_⟩
  · have hform : h.screen.toNat < 8 ∨ h.screen = 15 := .inl (by omega)
    rw [← lockHolder_screen s hn, ← setLock_screen hn, ne_eq, ← darkFor_screen hn s]
    exact ⟨lockFree_forced_refused ht hform, lockFree_forced_freed ht hform⟩
  · have hform : h.screen.toNat < 8 ∨ h.screen = 15 := .inr h15
    rw [← lockHolder_part s, ← setLock_part, ← not_forall, ← darkFor_part s, ← h15]
    exact ⟨lockFree_forced_refused ht hform, lockFree_forced_freed ht hform⟩

end Sys2Proof.Machine
end

-- Proofs/PowerOnValues: power-on, a due PART-RESET and the state after reset (O2, O3, O60)
section
/-! Power-on and a due PART-RESET both leave `State.powerOn` but for the frame index and the count of free values, of which the
power-on values say nothing (`AtPowerOn.reindexed`). So they are shown once, block by block, of `State.powerOn`. -/

namespace Sys2Proof.Machine

/-! ### The blocks at power-on -/

theorem portPowerOn_values : PortAtPowerOn portPowerOn := by
  simp [PortAtPowerOn, portPowerOn, silence, zeroCounters]

theorem arbiterPowerOn_values : ArbiterAtPowerOn arbiterPowerOn := by
  simp [ArbiterAtPowerOn, arbiterPowerOn]

theorem contextPowerOn_values : ContextAtPowerOn contextPowerOn := by
  simp [ContextAtPowerOn, contextPowerOn, entryPowerOn]

theorem screenPortPowerOn_values : ScreenPortAtPowerOn screenPortPowerOn := by
  simp [ScreenPortAtPowerOn, screenPortPowerOn, allAbsent]

/-- The working format is the built-in tag 3 (R65, R83). -/
theorem decoderPowerOn_values : DecoderAtPowerOn decoderPowerOn := by
  simp [DecoderAtPowerOn, decoderPowerOn, entryPowerOn, builtIn]

theorem enginePowerOn_values : EngineAtPowerOn enginePowerOn := by
  refine ⟨fun k c => ?_, fun c => by simp [enginePowerOn], rfl, rfl, rfl, rfl, rfl, rfl⟩
  cases k <;> simp [enginePowerOn, Engine.bank, chainPowerOn]

/-- The nine rows of the alarm table (R114). -/
theorem tablePowerOn_values (cls : AlarmClass) : tablePowerOn[classIndex cls] = tableDefaults cls := by
  cases cls <;> rfl

theorem monitorPowerOn_values : MonitorAtPowerOn monitorPowerOn :=
  ⟨fun c => by simp [monitorPowerOn, meterZero], fun id => by simp [monitorPowerOn, alarmClear], tablePowerOn_values, rfl, rfl, rfl,
    rfl⟩

/-! ### The part at power-on -/

/-- The power-on values say nothing of the index of the next frame and of the count of free values. -/
theorem AtPowerOn.reindexed {t : State} (h : AtPowerOn t) (frame free : Nat) :
    AtPowerOn { t with frameIndex := frame, freeCount := free } := h

/-- The sum that the node number is stays within a byte (R175). -/
theorem node_toNat (s : State) : s.node.toNat = 0xC0 + s.straps.toNat := by
  have hstraps := s.straps.isLt
  simp only [State.node, BitVec.toNat_ofNat]
  omega

section
variable (straps : BitVec 4) (queue : List Instr)

theorem powerOn_port (p : Fin 12) : (State.powerOn straps queue).ports[p] = portPowerOn := by simp [State.powerOn]

theorem powerOn_arbiter (p : Fin 12) : (State.powerOn straps queue).arbiters[p] = arbiterPowerOn := by simp [State.powerOn]

theorem powerOn_screen (n : Fin 8) : (State.powerOn straps queue).screens[n] = screenPowerOn := by simp [State.powerOn]

/-- Every record of the cue pool is free (R155). -/
theorem powerOn_freeStack : (State.powerOn straps queue).freeStack = List.range 512 := by simp only [State.powerOn, poolSize]

theorem powerOn_values : AtPowerOn (State.powerOn straps queue) := by
  refine ⟨rfl, rfl, fun p => ?_, fun n => ?_, fun i => by simp [State.powerOn], rfl, .of_eq (powerOn_freeStack straps queue),
    fun l => by simp [State.powerOn, linePowerOn], rfl, rfl⟩
  · rw [powerOn_port, powerOn_arbiter]
    exact ⟨portPowerOn_values, arbiterPowerOn_values⟩
  · rw [powerOn_screen]
    exact ⟨contextPowerOn_values, screenPortPowerOn_values, decoderPowerOn_values, enginePowerOn_values, monitorPowerOn_values, rfl,
      rfl, rfl, by simp [State.powerOn]⟩

/-! ### The conditions that always hold -/

theorem powerOn_portsSafe : (State.powerOn straps queue).PortsSafe := by
  intro p
  rw [powerOn_port]
  exact ⟨Nat.zero_le _, fun _ => ⟨rfl, rfl⟩⟩

theorem powerOn_arbitersSafe : (State.powerOn straps queue).ArbitersSafe := by
  intro p
  rw [powerOn_arbiter]
  exact Nat.zero_le _

theorem powerOn_enginesSafe : (State.powerOn straps queue).EnginesSafe := by
  intro n
  rw [powerOn_screen]
  exact ⟨Nat.zero_le _, nofun⟩

/-- At power-on no record has a section (R86, R107). -/
theorem powerOn_sectionTotal : (State.powerOn straps queue).sectionTotal = 0 := by
  have hscreen : screenPowerOn.eng.sectionAllocation = 0 := by
    simp [screenPowerOn, enginePowerOn, chainPowerOn, Engine.sectionAllocation]
  simp [State.sectionTotal, State.powerOn, hscreen]

/-- At power-on no record has a delay (R87, R107). -/
theorem powerOn_poolTotal : (State.powerOn straps queue).poolTotal = 0 := by
  have hchannel : screenPowerOn.eng.delayAllocation = fun _ => 0 := by
    funext c
    simp [screenPowerOn, enginePowerOn, chainPowerOn, Engine.delayAllocation]
  simp [State.poolTotal, State.powerOn, hchannel]

theorem powerOn_budgetSafe : (State.powerOn straps queue).BudgetSafe := by
  rw [State.BudgetSafe, powerOn_sectionTotal, powerOn_poolTotal]
  exact ⟨Nat.zero_le _, Nat.zero_le _⟩

end

/-! ### A due reset -/

section
variable {s : State} (hp : s.powered = true)
include hp

theorem partResetTakesEffect_due {r : ResetPending} (hr : s.resetPending = some r) (hd : r.due = true) :
    exec .partResetTakesEffect s = .next s.partReset := by
  have hx : exec .partResetTakesEffect s = .next s.takeDueReset := live_on hp _
  simp only [hx, State.takeDueReset, hr, hd, if_true]

theorem partResetTakesEffect_notDue (hno : s.resetPending = none ∨ ∃ r, s.resetPending = some r ∧ r.due = false) :
    exec .partResetTakesEffect s = .next s := by
  have hx : exec .partResetTakesEffect s = .next s.takeDueReset := live_on hp _
  rcases hno with hr | ⟨r, hr, hd⟩
  · simp only [hx, State.takeDueReset, hr]
  · simp only [hx, State.takeDueReset, hr, hd, Bool.false_eq_true, if_false]

end

/-! ### The statements -/

/-- Settles O2: POWER_ON leaves a power-on that keeps the queue and the count of free values. -/
theorem powerOnGivesEveryBlockItsValues : Obligations.PowerOnGivesEveryBlockItsValues := fun straps s =>
  ⟨{ State.powerOn straps s.pending with freeCount := s.freeCount }, rfl,
    (powerOn_values straps s.pending).reindexed 0 s.freeCount, rfl, node_toNat _, rfl⟩

/-- Settles O3: a due reset leaves a power-on with the straps, the queue and the frame index as they stand. -/
theorem duePartResetTakesEffect : Obligations.DuePartResetTakesEffect := by
  refine fun s hp => ⟨fun r hr hd => ⟨s.partReset, partResetTakesEffect_due hp hr hd, ?_, rfl, rfl, rfl, rfl⟩,
    partResetTakesEffect_notDue hp⟩
  exact (powerOn_values s.straps s.pending).reindexed s.frameIndex s.freeCount

/-- Settles O60: the state after reset is a power-on with the straps at 0. -/
theorem resetStateIsPowerOnAndSafe : Obligations.ResetStateIsPowerOnAndSafe :=
  ⟨powerOn_values _ _, rfl, rfl, powerOn_portsSafe _ _, powerOn_arbitersSafe _ _, powerOn_enginesSafe _ _, powerOn_budgetSafe _ _,
    powerOn_alarmsSafe _ _, powerOn_noticesSafe _ _, powerOn_cuesSafe _ _⟩

end Sys2Proof.Machine
end

-- Proofs/ReadingRequests: the reading requests and the parts of their replies (O13)
section
/-! A reading request passes the checks before its block where its kind has the form (`read_part`, `read_screen`); its block answers
the parts of a list of reply items, or refuses. Which list that is, is said here for every form. -/

namespace Sys2Proof.Machine

/-! ### A read that is answered, and a read that is refused -/

/-- Screen number 15 is no screen's. -/
theorem index?_part {h : ReqHead} (h15 : h.screen = 15) : index? 8 h.screen.toNat = none := by
  rw [h15]
  rfl

section
variable {c : Instr} {h : ReqHead} {k : ReqKind} {s : State} {body : State → Answer} {part : Nat} {items : List Word}
  (hx : exec c s = live s fun s => s.request h k body) (hc : k.cls = .read) (ht : s.takes h)
include hx hc ht

section
variable (hk : k.takesPart = true) (h15 : h.screen = 15)
include hk h15

theorem reads_part (hb : body s = readAnswer s items part) : ReadsPart c h k part s items :=
  readsPart_of_answer (read_part hx hk hc ht h15) hb

theorem refuses_part (hb : body s = .refuse .range) : exec c s = .next (s.refusedWith h k .range) :=
  (read_part hx hk hc ht h15).trans (congrArg _ (outcome_refuse hb))

end

section
variable (hk : k.takesScreen = true) {n : Fin 8} (hn : h.screen.toNat = n.val)
include hk hn

theorem reads_screen (hb : body s = readAnswer s items part) : ReadsPart c h k part s items :=
  readsPart_of_answer (read_screen hx hk hc ht hn) hb

theorem refuses_screen (hb : body s = .refuse .range) : exec c s = .next (s.refusedWith h k .range) :=
  (read_screen hx hk hc ht hn).trans (congrArg _ (outcome_refuse hb))

end
end

/-! ### What the owning blocks answer -/

theorem onPort_at (p : Fin 12) (f : Fin 12 → Answer) : onPort p.val f = f p := by
  rw [onPort, index?_val]

theorem onPort_outside {port : Nat} (hport : 12 ≤ port) (f : Fin 12 → Answer) : onPort port f = .refuse .range := by
  have hindex : index? 12 port = none := dif_neg (Nat.not_lt.2 hport)
  rw [onPort, hindex]

section
variable {h : ReqHead} {part : Nat} {s : State}

/-- EQ-READ with screen number 15 has the part form alone (R106). -/
theorem answerEqRead_15 (h15 : h.screen = 15) (query : EqQuery) : answerEqRead h query part s =
    match query with
    | .part => readAnswer s s.budgetItems part
    | .screen | .channel _ _ _ => .refuse .range := by
  cases query <;> simp only [answerEqRead, index?_part h15]

/-- CUE-READ with screen number 15 has the part form alone (R154). -/
theorem answerCueRead_15 (h15 : h.screen = 15) (query : CueQuery) : answerCueRead h query part s =
    match query with
    | .part => readAnswer s s.lineItems part
    | .screen | .cue _ | .list _ => .refuse .range := by
  cases query <;> simp only [answerCueRead, index?_part h15]

/-- NOTICE-READ with screen number 15 has the port form alone (R173). -/
theorem answerNoticeRead_15 (h15 : h.screen = 15) (query : NoticeQuery) : answerNoticeRead h query part s =
    match query with
    | .port port => onPort port fun p => readAnswer s (s.arbiterItems p) part
    | .screen => .refuse .range := by
  cases query <;> simp only [answerNoticeRead, index?_part h15]

/-- FORMAT-READ with screen number 15 has the tag form alone (R82). -/
theorem answerFormatRead_15 (h15 : h.screen = 15) : answerFormatRead h .screen part s = .refuse .range := by
  simp only [answerFormatRead, index?_part h15]

section
variable {n : Fin 8} (hn : h.screen.toNat = n.val)
include hn

/-- FORMAT-READ of a screen has the screen form alone (R82). -/
theorem answerFormatRead_screen (query : FormatQuery) : answerFormatRead h query part s =
    match query with
    | .screen => readAnswer s (s.decodeItems n) part
    | .tag _ _ => .refuse .range := by
  cases query <;> simp only [answerFormatRead, index?_screen hn]

/-- EQ-READ of a screen has its form and the channel form (R106). -/
theorem answerEqRead_screen : answerEqRead h .screen part s = readAnswer s (s.engineItems n) part ∧
    answerEqRead h .part part s = .refuse .range := by
  simp only [answerEqRead, index?_screen hn, and_self]

/-- CUE-READ of a screen has its form, the cue form and the list form (R154). -/
theorem answerCueRead_screen : answerCueRead h .screen part s = readAnswer s (s.cueItems n) part ∧
    (∀ first, answerCueRead h (.list first) part s = readAnswer s (s.cueListItems n first) part) ∧
    answerCueRead h .part part s = .refuse .range := by
  simp only [answerCueRead, index?_screen hn, implies_true, and_self]

/-- NOTICE-READ of a screen has the screen form alone (R173). -/
theorem answerNoticeRead_screen (query : NoticeQuery) : answerNoticeRead h query part s =
    match query with
    | .screen => readAnswer s (s.noticeItems n) part
    | .port _ => .refuse .range := by
  cases query <;> simp only [answerNoticeRead, index?_screen hn]

/-- ALARM-READ reads all alarms, or the one that it names (R131). -/
theorem answerAlarmRead_all : answerAlarmRead h none part s = readAnswer s (s.alarmItems n) part := onScreen_at hn _

theorem answerAlarmRead_one (id : Fin 54) :
    answerAlarmRead h (some id.val) part s = readAnswer s (s.oneAlarmItems n id) part := by
  simp only [answerAlarmRead, onScreen_at hn, index?_val]

theorem answerAlarmRead_outside {id : Nat} (hid : 54 ≤ id) : answerAlarmRead h (some id) part s = .refuse .range := by
  have hindex : index? 54 id = none := dif_neg (Nat.not_lt.2 hid)
  simp only [answerAlarmRead, onScreen_at hn, hindex]

end
end

/-! ### The statement -/

/-- Settles O13: every read is `reads_part` or `reads_screen`, every refused form `refuses_part` or `refuses_screen`, with the answer
of its block. -/
theorem readingRequestsAnswerOnePart : Obligations.ReadingRequestsAnswerOnePart := by
  intro h part s ht
  refine ⟨fun h15 => ?_, fun h15 p => ?_, fun h15 port hport => ?_, fun h15 => ?_, fun h15 => ?_, fun h15 p => ?_,
    fun h15 => ⟨?_, ?_, fun k channel first => ?_, ?_, fun id => ?_, fun first => ?_, ?_, fun port hport => ?_⟩,
    fun n hn => ⟨fun tag row => ?_, ?_, ?_, fun port => ?_, fun id hid => ?_, ?_, ?_, ?_, ?_, ?_, fun id => ?_, ?_, fun first => ?_,
      ?_⟩⟩
  · exact reads_part (body := answerPartStatus part) rfl rfl ht rfl h15 rfl
  · exact reads_part (body := answerPortRead p.val part) rfl rfl ht rfl h15 (onPort_at p _)
  · exact refuses_part (body := answerPortRead port part) rfl rfl ht rfl h15 (onPort_outside hport _)
  · exact reads_part rfl rfl ht rfl h15 (answerEqRead_15 h15 .part)
  · exact reads_part rfl rfl ht rfl h15 (answerCueRead_15 h15 .part)
  · exact reads_part rfl rfl ht rfl h15 ((answerNoticeRead_15 h15 (.port p.val)).trans (onPort_at p _))
  · exact refuses_part rfl rfl ht rfl h15 (answerFormatRead_15 h15)
  · exact refuses_part rfl rfl ht rfl h15 (answerEqRead_15 h15 .screen)
  · exact refuses_part rfl rfl ht rfl h15 (answerEqRead_15 h15 (.channel k channel first))
  · exact refuses_part rfl rfl ht rfl h15 (answerCueRead_15 h15 .screen)
  · exact refuses_part rfl rfl ht rfl h15 (answerCueRead_15 h15 (.cue id))
  · exact refuses_part rfl rfl ht rfl h15 (answerCueRead_15 h15 (.list first))
  · exact refuses_part rfl rfl ht rfl h15 (answerNoticeRead_15 h15 .screen)
  · exact refuses_part rfl rfl ht rfl h15 ((answerNoticeRead_15 h15 (.port port)).trans (onPort_outside hport _))
  · exact refuses_screen rfl rfl ht rfl hn (answerFormatRead_screen hn (.tag tag row))
  · exact refuses_screen rfl rfl ht rfl hn (answerEqRead_screen hn).2
  · exact refuses_screen rfl rfl ht rfl hn (answerCueRead_screen hn).2.2
  · exact refuses_screen rfl rfl ht rfl hn (answerNoticeRead_screen hn (.port port))
  · exact refuses_screen rfl rfl ht rfl hn (answerAlarmRead_outside hn hid)
  · exact reads_screen (body := answerScreenRead h part) rfl rfl ht rfl hn (onScreen_at hn _)
  · exact reads_screen rfl rfl ht rfl hn (answerFormatRead_screen hn .screen)
  · exact reads_screen rfl rfl ht rfl hn (answerEqRead_screen hn).1
  · exact reads_screen (body := answerMeterRead h part) rfl rfl ht rfl hn (onScreen_at hn _)
  · exact reads_screen rfl rfl ht rfl hn (answerAlarmRead_all hn)
  · exact reads_screen rfl rfl ht rfl hn (answerAlarmRead_one hn id)
  · exact reads_screen rfl rfl ht rfl hn (answerCueRead_screen hn).1
  · exact reads_screen rfl rfl ht rfl hn ((answerCueRead_screen hn).2.1 first)
  · exact reads_screen rfl rfl ht rfl hn (answerNoticeRead_screen hn .screen)

end Sys2Proof.Machine
end

-- Proofs/KindNumbers: the kind numbers and the response codes (O8)
section
namespace Sys2Proof.Machine

/-- Settles O8: a kind's number is found kind by kind, as its place in the catalogue; an answer places the word of DONE before its
items. -/
theorem kindsAndCodesAreNumbered : Obligations.KindsAndCodesAreNumbered := by
  refine ⟨fun k => ?number, fun h s => ⟨rfl, fun k items => ?answer, fun code => ?code⟩⟩
  case number => cases k <;> rfl
  case answer => rw [State.answered, doneWord]
  case code => cases code <;> rfl

end Sys2Proof.Machine
end

-- Proofs/WaitingQueue: the queue of waiting commands and the step that takes from it (O5, O1)
section
/-! The queue of waiting commands is read and shortened by `step` alone. Every command is a run of single changes with at most one
response placed at its end (`exec_run`), and each of these keeps the queue. -/

namespace Sys2Proof.Machine

/-! ### What keeps the queue -/

/-- A choice of notice changes one screen or nothing (R161, R162). -/
@[simp] theorem State.choose_pending (n : Fin 8) (s : State) : (State.choose n s).pending = s.pending := by
  unfold State.choose
  simp only
  split
  · exact State.modScreen_pending _ _ _
  · rfl

/-- A power-on, and a reset that takes effect, carry the queue over; every other single change writes to other parts of the state. -/
theorem change_pending {s t : State} (h : Change s t) : t.pending = s.pending := by
  cases h with
  | port | arb | ctx | link | dec | eng | load | mon | frame | cues | quiet | notice | done | drive | lineSet | pulse | pulses => rfl
  | alarm n f => rw [alarmEvent_eq]; rfl
  | cueIn n k h =>
    obtain ⟨free, f, rfl⟩ := loadCue_shape h
    rfl
  | cueOut n id =>
    obtain ⟨free, f, hdelete⟩ := deleteCue_shape s n id
    rw [hdelete]; rfl
  | choice n => exact State.choose_pending n s
  | rest h =>
    obtain ⟨-, -, -, -, -, hpending⟩ := h
    exact hpending
  | restart straps frame free => exact State.powerOn_pending straps s.pending
  | powerLoss => rfl

theorem path_pending {s t : State} (h : Path s t) : t.pending = s.pending :=
  path_keeps (P := fun u => u.pending = s.pending) (fun _ _ hchange hu => (change_pending hchange).trans hu) h rfl

/-- A response is placed in an arbiter's queue, which is not the queue of waiting commands (R180). -/
@[simp] theorem State.place_pending (s : State) (h : ReqHead) (k : BitVec 11) (payload : List Word) (r : Bool) :
    (s.place h k payload r).pending = s.pending := State.modArb_pending _ _ _

/-! ### The statements -/

/-- Settles O5: neither the run of single changes that a command is, nor the response placed at its end, touches the queue. -/
theorem everyCommandKeepsTheWaitingQueue : Obligations.EveryCommandKeepsTheWaitingQueue := by
  intro c s t h
  obtain ⟨u, hpath, rfl | ⟨head, k, payload, r, -, rfl⟩⟩ := exec_run h
  · exact path_pending hpath
  · exact (State.place_pending u head k payload r).trans (path_pending hpath)

/-- Settles O1: a step with a command in front of the queue, and a step on the empty queue. -/
theorem stepRunsTheFrontCommand : Obligations.StepRunsTheFrontCommand := by
  refine ⟨fun c rest s => rfl, fun s hempty => ?_⟩
  rw [step, hempty]

end Sys2Proof.Machine
end

-- Proofs/LinksAndEngines: buffers, response queues, faders and budgets through every step (O58)
section
/-! As for O59, a condition holds in every run where each single change, the placing of a response and the taking of a command from
the queue keep it (`step_keeps`). The engines are followed screen by screen: a change keeps every engine safe, and either keeps every
engine's section counts and delays (`SameLoad`) or has been held to the budgets itself. -/

namespace Sys2Proof.Machine

/-! ### Program ports and response queues -/

theorem portsSafe_modPort {s : State} (hs : s.PortsSafe) (p : Fin 12) {f : Port → Port} (hf : (f s.ports[p]).Safe) :
    (s.modPort p f).PortsSafe := by
  intro q
  rw [Fin.getElem_fin, State.modPort_get]
  split
  · exact hf
  · exact hs q

theorem change_portsSafe (s t : State) (h : Change s t) (hs : s.PortsSafe) : t.PortsSafe := by
  cases h with
  | port p f hf => exact portsSafe_modPort hs p (hf (hs p))
  | cueIn n k h =>
    obtain ⟨_, _, rfl⟩ := loadCue_shape h
    exact hs
  | cueOut n id =>
    obtain ⟨_, _, hdelete⟩ := deleteCue_shape s n id
    rw [hdelete]
    exact hs
  | choice n =>
    unfold State.choose
    simp only
    split <;> exact hs
  | rest h => intro p; rw [h.1]; exact hs p
  | restart straps frame free => exact powerOn_portsSafe straps s.pending
  | powerLoss =>
    intro p
    simp only [State.losePower, Fin.getElem_fin, Vector.getElem_ofFn]
    exact hs p
  | _ => exact hs

/-- No change lengthens a response queue (`change_queue`), so none overfills one. -/
theorem change_arbitersSafe (s t : State) (h : Change s t) (hs : s.ArbitersSafe) : t.ArbitersSafe :=
  fun p => Nat.le_trans (change_queue h p) (hs p)

/-- A response is placed in a queue with room alone, so a command keeps the queues within four (R168, R176). -/
theorem exec_arbitersSafe {c : Instr} {s t : State} (h : exec c s = .next t) (hs : s.ArbitersSafe) : t.ArbitersSafe := by
  obtain ⟨u, hpath, rfl | ⟨head, k, payload, r, hroom, rfl⟩⟩ := exec_run h
  · exact path_keeps change_arbitersSafe hpath hs
  · intro p
    have hu := path_keeps change_arbitersSafe hpath hs p
    rw [State.place, Arbiter.Safe, Fin.getElem_fin, State.modArb_get]
    split
    · simpa using hroom
    · exact hu

theorem step_arbitersSafe {s t : State} (h : step s = .next t) (hs : s.ArbitersSafe) : t.ArbitersSafe := by
  unfold step at h
  split at h
  · exact exec_arbitersSafe h hs
  · cases h
    exact hs

/-! ### Engines -/

/-- What becomes of an engine: it stays safe, and its section counts and delays stay. -/
def EngineKept (e e' : Engine) : Prop := (e.Safe → e'.Safe) ∧ SameLoad e e'

theorem EngineKept.refl (e : Engine) : EngineKept e e := ⟨id, SameLoad.refl e⟩

/-- Every engine is kept from one state to another. -/
def EnginesKept (s t : State) : Prop := ∀ n : Fin 8, EngineKept s.screens[n].eng t.screens[n].eng

theorem enginesKept_of_screens {s t : State} (h : ∀ n : Fin 8, t.screens[n].eng = s.screens[n].eng) : EnginesKept s t :=
  fun n => by rw [h n]; exact .refl _

theorem enginesKept_modScreen {s : State} (n : Fin 8) {f : Screen → Screen}
    (h : EngineKept s.screens[n].eng (f s.screens[n]).eng) : EnginesKept s (s.modScreen n f) := by
  intro m
  simp only [Fin.getElem_fin, State.modScreen_get]
  split
  · next hm => subst hm; exact h
  · exact .refl _

/-- A cue's load and deletion reach the free stack and one cue list alone. -/
theorem enginesKept_modCues (s : State) (free : List Nat) (n : Fin 8) (f : List Cue → List Cue) :
    EnginesKept s ({ s with freeStack := free }.modCues n f) :=
  fun m => enginesKept_modScreen (s := { s with freeStack := free }) n (.refl _) m

theorem cascadeAfter_length (x : Int) (l : List Section) : (cascadeAfter x l).length = l.length := by
  induction l generalizing x with
  | nil => rfl
  | cons c rest ih => rw [cascadeAfter, List.length_cons, ih, List.length_cons]

/-- A frame shifts the sections of the banks that run and counts none anew (R85). -/
theorem sameLoad_afterFrame (e : Engine) (x : Inputs) : SameLoad e (e.advanceFade.afterFrame x) := by
  intro k c
  by_cases hrun : e.crossfade.isSome = true ∨ e.active = k
  · have hbank := afterFrame_runs e x c hrun
    rw [Fin.getElem_fin] at hbank
    rw [hbank]
    exact ⟨cascadeAfter_length _ _, rfl⟩
  · rw [afterFrame_rests e x hrun]
    exact ⟨rfl, rfl⟩

theorem engineKept_frame (x : Inputs) (sc : Screen) : EngineKept sc.eng (sc.frame x).eng := by
  by_cases hdark : sc.ctx.state = .dark
  · have hframe : sc.frame x = { sc with eng := { sc.eng with outputs := Vector.replicate 16 0 } } := by
      unfold Screen.frame
      rw [hdark]
    rw [hframe]
    exact ⟨id, sameLoad_of_banks rfl rfl⟩
  · rw [frame_playing hdark]
    exact ⟨id, sameLoad_afterFrame _ _⟩

/-- A change keeps every engine, but for a load, which has been held to the budgets, and a restart. -/
theorem change_engines {s t : State} (h : Change s t) :
    EnginesKept s t ∨ ((s.EnginesSafe → t.EnginesSafe) ∧ t.BudgetSafe) := by
  cases h with
  | eng n f hsafe hload => exact .inl (enginesKept_modScreen n ⟨hsafe _, hload⟩)
  | load n f hsafe hbudget =>
    refine .inr ⟨fun hs m => ?_, (withinBudget_iff _).1 hbudget⟩
    simp only [State.modEng_eq, Fin.getElem_fin, State.modScreen_get]
    split
    · exact hsafe _ (hs n)
    · exact hs m
  | frame n x => exact .inl (enginesKept_modScreen n (engineKept_frame x _))
  | ctx n f | link n f | dec n f | mon n f | cues n g | quiet n q | notice n f | done n e rest =>
    exact .inl (enginesKept_modScreen n (.refl _))
  | alarm n f =>
    refine .inl fun m => ?_
    rw [alarmEvent_screens]
    exact enginesKept_modScreen n (.refl _) m
  | cueIn n k h =>
    obtain ⟨_, _, rfl⟩ := loadCue_shape h
    exact .inl (enginesKept_modCues s _ n _)
  | cueOut n id =>
    obtain ⟨_, _, hdelete⟩ := deleteCue_shape s n id
    rw [hdelete]
    exact .inl (enginesKept_modCues s _ n _)
  | choice n =>
    refine .inl ?_
    unfold State.choose
    simp only
    split
    · exact enginesKept_modScreen n (.refl _)
    · exact fun _ => .refl _
  | port p f | arb p f | drive l counter d | lineSet l owner mode threshold | pulse l counter | pulses counter =>
    exact .inl fun _ => .refl _
  | rest h => exact .inl (enginesKept_of_screens fun n => by rw [h.2.2.1])
  | restart straps frame free =>
    exact .inr ⟨fun _ => powerOn_enginesSafe straps s.pending, powerOn_budgetSafe straps s.pending⟩
  | powerLoss =>
    refine .inl (enginesKept_of_screens fun n => ?_)
    simp only [State.losePower, Fin.getElem_fin, Vector.getElem_ofFn]
    rfl

theorem change_enginesSafe (s t : State) (h : Change s t) (hs : s.EnginesSafe) : t.EnginesSafe := by
  rcases change_engines h with hkept | ⟨hsafe, -⟩
  · exact fun n => (hkept n).1 (hs n)
  · exact hsafe hs

/-! ### Budgets -/

theorem SameLoad.sectionAllocation {e e' : Engine} (h : SameLoad e e') : e'.sectionAllocation = e.sectionAllocation := by
  have hcount (c : Fin 16) : e'.bankA[c].sections.length + e'.bankB[c].sections.length =
      e.bankA[c].sections.length + e.bankB[c].sections.length := congrArg₂ (· + ·) (h .a c).1 (h .b c).1
  simp only [Engine.sectionAllocation, hcount]

theorem SameLoad.delayAllocation {e e' : Engine} (h : SameLoad e e') : e'.delayAllocation = e.delayAllocation :=
  funext fun c => congrArg₂ max (h .a c).2 (h .b c).2

/-- Engines with the same section counts and delays use the same budgets (R86, R87). -/
theorem EnginesKept.totals {s t : State} (h : EnginesKept s t) : t.sectionTotal = s.sectionTotal ∧ t.poolTotal = s.poolTotal := by
  have hsections (n : Fin 8) := (h n).2.sectionAllocation
  have hdelays (n : Fin 8) := (h n).2.delayAllocation
  simp only [State.sectionTotal, State.poolTotal, hsections, hdelays, and_self]

theorem change_budgetSafe (s t : State) (h : Change s t) (hs : s.BudgetSafe) : t.BudgetSafe := by
  rcases change_engines h with hkept | ⟨-, hbudget⟩
  · rw [State.BudgetSafe, hkept.totals.1, hkept.totals.2]
    exact hs
  · exact hbudget

/-! ### The statement -/

/-- Settles O58: ports, engines and budgets are kept by every single change, and a response is placed where its queue has room. -/
theorem linksEnginesAndBudgetsStaySafe : Obligations.LinksEnginesAndBudgetsStaySafe := fun _ _ h =>
  ⟨step_keeps change_portsSafe (fun _ _ _ _ _ hs => hs) (fun _ _ hs => hs) h, step_arbitersSafe h,
    step_keeps change_enginesSafe (fun _ _ _ _ _ hs => hs) (fun _ _ hs => hs) h,
    step_keeps change_budgetSafe (fun _ _ _ _ _ hs => hs) (fun _ _ hs => hs) h⟩

end Sys2Proof.Machine
end

-- Proofs/PortRequests: PORT-CLEAR, PORT-SET and PORT-RESTART (O16, O17)
section
/-! The updates of one port are said once (`modPort_modPort`, `capturing_eq`, `discardMessage_eq`), and with them what an entry to DOWN
and to HUNT leaves of the port (`disablePort_eq`, `huntPort_eq`). No screen hears either entry (`announce_unheard`). -/

namespace Sys2Proof.Machine

/-! ### Updates of one port -/

/-- Two updates of one port that agree on it are one. -/
theorem modPort_congr {s : State} {p : Fin 12} {f g : Port → Port} (h : f s.ports[p] = g s.ports[p]) :
    s.modPort p f = s.modPort p g := by
  simp only [State.modPort, h]

/-- Two updates of one port in turn are one. -/
theorem modPort_modPort (s : State) (p : Fin 12) (f g : Port → Port) : (s.modPort p f).modPort p g = s.modPort p fun x => g (f x) := by
  simp [State.modPort]

/-- An update that leaves the port as it is leaves the state. -/
theorem modPort_self {s : State} {p : Fin 12} {f : Port → Port} (h : f s.ports[p] = s.ports[p]) : s.modPort p f = s := by
  have hset : s.ports.set p.val (f s.ports[p]) = s.ports := by
    rw [h]
    exact Vector.set_getElem_self p.isLt
  simp only [State.modPort, hset]

/-- The port after its update. -/
theorem modPort_at (s : State) (p : Fin 12) (f : Port → Port) : (s.modPort p f).ports[p] = f s.ports[p] := State.modPort_same s p f

/-- An error is offered to the capture record alone (R21). -/
theorem capturing_eq (kind : ErrorKind) (index : Option Nat) (counter : Long) (x : Port) :
    x.capturing kind index counter = { x with capture := offered x kind index counter } := by
  unfold Port.capturing offered
  split <;> simp_all

/-- A discarded message is counted and offered to the capture record (R17, R20, R21). -/
theorem discardMessage_eq (s : State) (p : Fin 12) (index : Option Nat) (counter : Long) :
    s.discardMessage p index counter = s.modPort p fun x =>
      { x with counters := { x.counters with discarded := oneMore x.counters.discarded }
               capture := offered x .service index counter } := by
  rw [State.discardMessage, State.count, State.offerError, modPort_modPort]
  exact modPort_congr (capturing_eq ..)

/-! ### PORT-CLEAR -/

/-- Settles O16: the port's and the arbiter's update are the two that the statement names. -/
theorem portClearZeroesTheCounters : Obligations.PortClearZeroesTheCounters := by
  refine fun h s => ⟨fun p => under_part (answerPortClear p.val) rfl rfl rfl (.inl rfl) fun _ hx => ?_,
    fun port hport => under_part (answerPortClear port) rfl rfl rfl (.inl rfl) fun _ hx => ?_⟩
  · exact hx.trans (congrArg _ (outcome_done (onPort_at p _)))
  · exact hx.trans (congrArg _ (outcome_refuse (onPort_outside hport _)))

/-! ### Entries to DOWN and to HUNT by request -/

/-- A message being sent on a LOCKED port's channel is abandoned when the port leaves LOCKED by request (R172). -/
def State.abandonLocked (s : State) (p : Fin 12) (before : PortState) : State :=
  if before = .locked then s.abandonMessage p else s

/-- A port that is not DOWN enters HUNT with every run at 0 (R7, R25). -/
theorem huntPort_eq (s : State) (p : Fin 12) : s.huntPort p = (s.modPort p (idlePort .hunt)).abandonLocked p s.ports[p].state :=
  announce_unheard _ p (.inl rfl)

/-- A port that is not DOWN enters DOWN, and a message under assembly is discarded (R7). -/
theorem disablePort_eq {s : State} {p : Fin 12} (h : s.ports[p].state ≠ .down) : s.disablePort p =
    ((if s.ports[p].assembly = none then s else s.discardMessage p none s.blockCounter).modPort p
      (idlePort .down)).abandonLocked p s.ports[p].state := by
  rw [State.disablePort, if_neg h]
  refine (announce_unheard _ p (.inr (.inl rfl))).trans ?_
  cases s.ports[p].assembly <;> rfl

theorem disablePort_down {s : State} {p : Fin 12} (h : s.ports[p].state = .down) : s.disablePort p = s := if_pos h

/-! ### PORT-SET and PORT-RESTART -/

section
variable {enable dropEnable : Bool} {holdover dropCount dropWindow : Nat} {s : State} {p : Fin 12}

/-- A port with the settings of a PORT-SET written: a change of a drop setting closes the window (R22, R10). -/
def Port.settingsWritten (enable : Bool) (holdover dropCount dropWindow : Nat) (dropEnable : Bool) (x : Port) : Port :=
  { x with settings := { enable, holdover := min holdover 250, dropCount, dropWindow, dropEnable }
           window := if x.settings.dropCount = dropCount ∧ x.settings.dropWindow = dropWindow ∧
               x.settings.dropEnable = dropEnable then x.window else none }

theorem takeSettings_eq : Port.takeSettings (portSettings enable holdover dropCount dropWindow dropEnable) =
    Port.settingsWritten enable holdover dropCount dropWindow dropEnable := by
  funext x
  have hdiffers : x.settings.dropDiffers (portSettings enable holdover dropCount dropWindow dropEnable) = true ↔
      ¬(x.settings.dropCount = dropCount ∧ x.settings.dropWindow = dropWindow ∧ x.settings.dropEnable = dropEnable) := by
    simp only [PortSettings.dropDiffers, portSettings, Bool.or_eq_true, bne_iff_ne, ne_eq, not_and_or, or_assoc]
  rw [Port.takeSettings, Port.settingsWritten]
  simp only [hdiffers, ite_not]
  rfl

theorem answerPortSet_refused (h : ¬(1 ≤ dropCount ∧ dropCount ≤ 255 ∧ 1 ≤ dropWindow ∧ dropWindow ≤ 255)) :
    answerPortSet p.val enable holdover dropCount dropWindow dropEnable s = .refuse .range := by
  rw [answerPortSet, onPort_at, if_neg h]

theorem answerPortSet_written (h : 1 ≤ dropCount ∧ dropCount ≤ 255 ∧ 1 ≤ dropWindow ∧ dropWindow ≤ 255) :
    answerPortSet p.val enable holdover dropCount dropWindow dropEnable s =
      .done ((s.modPort p (.settingsWritten enable holdover dropCount dropWindow dropEnable)).takeEnable p enable) [] := by
  rw [answerPortSet, onPort_at, if_pos h, takeSettings_eq]

theorem settingsWritten_port :
    (s.modPort p (.settingsWritten enable holdover dropCount dropWindow dropEnable)).ports[p].state = s.ports[p].state ∧
    (s.modPort p (.settingsWritten enable holdover dropCount dropWindow dropEnable)).ports[p].assembly = s.ports[p].assembly := by
  rw [modPort_at]
  exact ⟨rfl, rfl⟩

theorem answerPortRestart_down (h : s.ports[p].state = .down) : answerPortRestart p.val s = .refuse .state := by
  rw [answerPortRestart, onPort_at, if_pos h]

theorem answerPortRestart_hunts (h : s.ports[p].state ≠ .down) : answerPortRestart p.val s = .done (s.huntPort p) [] := by
  rw [answerPortRestart, onPort_at, if_neg h]

end

/-- Settles O17: PORT-SET writes the settings and takes the port where its enable says; PORT-RESTART takes it to HUNT. -/
theorem portSetAndRestartGovernThePort : Obligations.PortSetAndRestartGovernThePort := by
  refine ⟨fun h enable holdover dropCount dropWindow dropEnable s => ⟨fun port hport => ?_, fun p => ?_⟩,
    fun h s => ⟨fun port hport => ?_, fun p => ?_⟩⟩
  · exact under_part (answerPortSet port enable holdover dropCount dropWindow dropEnable) rfl rfl rfl (.inl rfl) fun _ hx =>
      hx.trans (congrArg _ (outcome_refuse (onPort_outside hport _)))
  · refine under_part (answerPortSet p.val enable holdover dropCount dropWindow dropEnable) rfl rfl rfl (.inl rfl) fun _ hx => ?_
    obtain ⟨hstate, hassembly⟩ := settingsWritten_port (s := s) (p := p) (enable := enable) (holdover := holdover)
      (dropCount := dropCount) (dropWindow := dropWindow) (dropEnable := dropEnable)
    refine ⟨fun hout => hx.trans (congrArg _ (outcome_refuse (answerPortSet_refused hout))), fun hin hsame => ?_,
      fun hin hon hdown => ?_, fun hin hoff hup => ?_⟩ <;>
      refine hx.trans (congrArg _ ((outcome_done (answerPortSet_written hin)).trans ?_)) <;>
      refine congrArg (fun t : State => t.answered h .portSet []) ?_
    · cases enable with
      | true => exact if_neg fun hdown => hsame.1 rfl (hstate.symm.trans hdown)
      | false =>
        refine disablePort_down (hstate.trans (Classical.not_not.1 fun hne => ?_))
        cases hsame.2 hne
    · subst hon
      rw [State.takeEnable, if_pos rfl, if_pos (hstate.trans hdown), huntPort_eq, hstate, hdown]
      rfl
    · subst hoff
      rw [State.takeEnable, if_neg Bool.false_ne_true, disablePort_eq (by rwa [hstate]), hstate, hassembly, discardMessage_eq]
      rfl
  · exact under_part (answerPortRestart port) rfl rfl rfl (.inl rfl) fun _ hx =>
      hx.trans (congrArg _ (outcome_refuse (onPort_outside hport _)))
  · refine under_part (answerPortRestart p.val) rfl rfl rfl (.inl rfl) fun _ hx => ⟨fun hdown => ?_, fun hup => ?_⟩
    · exact hx.trans (congrArg _ (outcome_refuse (answerPortRestart_down hdown)))
    · refine hx.trans (congrArg _ ((outcome_done (answerPortRestart_hunts hup)).trans ?_))
      rw [huntPort_eq]
      rfl

end Sys2Proof.Machine
end

-- Proofs/ReplyItems: the items of the replies, in their order (O15)
section
/-! Most replies are the statement's lists as they stand. What differs is said here: named values that are numbered by their place in a
list or by a code, items read off a vector or index by index, and the requesters of a port's cyclic order. -/

namespace Sys2Proof.Machine

/-! ### Numbers of named values, and the items of a vector -/

theorem numberOf_screenState (st : ScreenState) : numberOf allScreenStates st = wordOf (screenStateCode st) := by
  cases st <;> rfl

/-- The entries of a vector are its items, index by index. -/
theorem toList_eq_map {α : Type} {n : Nat} (v : Vector α n) : v.toList = (List.finRange n).map fun k => v[k] := by
  apply List.ext_getElem <;> simp

theorem flatMap_toList {α : Type} {n : Nat} (v : Vector α n) (f : α → List Word) :
    v.toList.flatMap f = (List.finRange n).flatMap fun k => f v[k] := by
  rw [toList_eq_map, List.flatMap_map]

section
variable (s : State)

/-! ### Replies of the part -/

theorem statusItems_eq : s.statusItems = [0x0812, Config.revision, nodeWord s.node, wordOf s.straps.toNat] ++
    longWords s.blockCounter ++ ((List.finRange 12).map fun p => wordOf (portStateCode s.ports[p].state)) ++
    ((List.finRange 8).flatMap fun n =>
      [wordOf (screenStateCode s.screens[n].ctx.state), numberOf [.hunt, .exchange, .up] s.screens[n].link.link]) ++
    ((List.finRange 8).map fun n => nodeWord s.screenLocks[n]) ++ [nodeWord s.partLock] := by
  simp only [State.statusItems, numberOf_screenState]
  rfl

theorem lineItems_eq : s.lineItems = wordOf s.freeStack.length :: ((List.finRange 16).flatMap fun l =>
    optWords (fun k => [wordOf k]) (s.lines[l].owner.map (·.val)) ++ [numberOf [.cue, .alarm] s.lines[l].mode,
      wordOf s.lines[l].threshold, clearFirstWord s.lines[l].closed] ++ optWords longWords s.lines[l].pulseEnd) ++
    longWords s.blockCounter := by
  rw [State.lineItems, flatMap_toList]
  rfl

theorem meterItems_eq (n : Fin 8) : s.meterItems n = [wordOf s.screens[n].mon.speed] ++ ((List.finRange 16).flatMap fun c =>
    sampleWords s.screens[n].mon.meters[c].peak ++ sampleWords s.screens[n].mon.meters[c].level) ++
    longWords s.blockCounter := by
  simp only [State.meterItems, flatMap_toList]
  rfl

end

/-! ### A port's requesters -/

section
variable (s : State) (p : Fin 12)

theorem requesterWord_eq (q : Requester) : requesterWord q = match q with
    | .resp => 0
    | .screen n => wordOf (n.val + 1) := by
  cases q <;> rfl

/-- A screen stands in a port's order where its route names the port (R169). -/
theorem requests_eq (q : Requester) : s.requests p q = match q with
    | .resp => true
    | .screen n => decide (s.screens[n].ctx.route.map (·.port) = some p) := by
  cases q with
  | resp => rfl
  | screen n => cases hroute : s.screens[n].ctx.route <;> simp only [State.requests, hroute, Option.map, beq_eq_decide, reduceCtorEq, decide_false, Option.some.injEq]

theorem guaranteeOf_eq (q : Requester) : s.guaranteeOf p q = match q with
    | .resp => s.arbiters[p].respCount
    | .screen n => (s.screens[n].ctx.route.map (·.count)).getD 0 := by
  cases q with
  | resp => rfl
  | screen n => cases hroute : s.screens[n].ctx.route <;> simp only [State.guaranteeOf, hroute] <;> rfl

theorem weightOf_eq (q : Requester) : s.weightOf p q = match q with
    | .resp => s.arbiters[p].respWeight
    | .screen n => (s.screens[n].ctx.route.map (·.weight)).getD 1 := by
  cases q with
  | resp => rfl
  | screen n => cases hroute : s.screens[n].ctx.route <;> simp only [State.weightOf, hroute] <;> rfl

theorem requesterWords_eq : s.requesterWords p = fun q => [requesterWord q, wordOf (s.guaranteeOf p q), wordOf (s.weightOf p q),
    wordOf (remaining s.arbiters[p] q), flagWord (s.waits p q)] :=
  funext fun q => by rw [State.requesterWords, leftOf_eq]

end

/-! ### Cues -/

/-- An action is its kind and then its operands (R193). -/
theorem actionWords_eq (a : CueAction) : actionWords a = match a with
    | .contact line .closeLine => [0, wordOf line, 0]
    | .contact line .openLine => [0, wordOf line, 1]
    | .contact line (.pulse ms) => [0, wordOf line, 2, wordOf ms]
    | .fade target duration => [1, wordOf target, wordOf duration]
    | .mute on => [2, flagWord on]
    | .eqBank k => [3, numberOf [.a, .b] k]
    | .format tag => 4 :: optWords (fun k => [wordOf k]) tag
    | .source role => [5, numberOf [.primary, .alternate] role]
    | .quiet d => 6 :: longWords (BitVec.ofNat 32 d)
    | .mark level => [7, wordOf level] := by
  cases a with
  | contact line d => cases d <;> rfl
  | _ => rfl

/-- Settles O15: reply by reply, in the statement's order. -/
theorem replyItemsStandInOrder : Obligations.ReplyItemsStandInOrder := by
  intro s
  refine ⟨statusItems_eq s, rfl, lineItems_eq s, fun p => rfl, fun p => ?_, waits_iff s, fun n => ⟨?_, ?_, rfl, meterItems_eq s n,
    ?_, fun id => ?_, rfl, fun first => rfl, fun k => ?_, ?_⟩⟩
  · simp only [State.arbiterItems, requesterWords_eq, requesterWord_eq, guaranteeOf_eq, weightOf_eq, funext (requests_eq s p)]
    rfl
  · simp only [State.screenItems, numberOf_screenState]
    rfl
  · rfl
  · simp only [State.alarmItems, toList_eq_map, List.map_map]
    rfl
  · simp only [State.oneAlarmItems, alarmWords, recordWords, List.append_assoc]
    rfl
  · rw [cueWords, actionWords_eq]
    rfl
  · rfl

end Sys2Proof.Machine
end

-- Proofs/Announcements: what the screens make of a port's announcements and slips
section
/-! Every screen in turn hears what a port announces. An entry to LOST or to LOCKED makes one update of each screen record
(`forScreens_modScreen`). An entry to BREAK and a slip reach a screen's alarm unit and with it the contact lines: `Heard` is what an
operation of that kind is on one screen, and `forScreens_heard` reads its run over the eight screens off (R8, R48 to R50, R113). -/

namespace Sys2Proof.Machine

/-! ### An update of each screen -/

section
variable {s : State} {f : Fin 8 → State → State} {g : Screen → Screen}

/-- An operation that makes `g` of its screen in every state with the same ports makes `g` of each when repeated over the screens. -/
theorem forScreens_modScreen (h : ∀ n t, t.ports = s.ports → f n t = t.modScreen n g) :
    forScreens f s = { s with screens := Vector.ofFn fun n => g s.screens[n] } := by
  have hsame (items : List (Fin 8)) (t : State) (ht : t.ports = s.ports) :
      forEach items f t = forEach items (fun n t => t.modScreen n g) t := by
    induction items generalizing t with
    | nil => rfl
    | cons a items ih =>
      refine (ih (f a t) (by rw [h a t ht]; exact ht)).trans ?_
      rw [h a t ht]
      rfl
  refine (hsame _ s rfl).trans ((forEach_modScreen g _ (List.nodup_finRange 8) s).trans ?_)
  simp only [List.mem_finRange, if_true]

end

/-- Failover becomes due at a screen that a condition holds of (R50). -/
theorem armFailover_if {c : Prop} [Decidable c] {s : State} {n : Fin 8} {g : Screen → Screen}
    (hg : g s.screens[n] = if c then { s.screens[n] with ctx := s.screens[n].ctx.armFailover } else s.screens[n]) :
    (if c then s.modCtx n Context.armFailover else s) = s.modScreen n g := by
  split
  · next hc => exact modScreen_congr (by rw [hg, if_pos hc])
  · next hc => exact (modScreen_self (by rw [hg, if_neg hc])).symm

/-- An entry to LOST makes failover due where a RUNNING screen plays from that port as its primary (R49, R50). -/
theorem announce_lost (s : State) (p : Fin 12) :
    s.announce p .lost = { s with screens := Vector.ofFn fun n => afterLost p s.screens[n] } := by
  refine forScreens_modScreen fun n t _ => armFailover_if ?_
  unfold afterLost Context.armFailover
  split_ifs <;> simp_all

/-- An entry to LOCKED makes failover due where a RUNNING screen has that port as its alternate and its primary LOST (R49, R50). -/
theorem announce_locked (s : State) (p : Fin 12) :
    s.announce p .locked = { s with screens := Vector.ofFn fun n => afterLocked s.ports p s.screens[n] } := by
  refine forScreens_modScreen fun n t hports => armFailover_if ?_
  have hlost : t.portIs t.screens[n].ctx.primary .lost = true ↔
      ∃ q, t.screens[n].ctx.primary = some q ∧ s.ports[q].state = .lost := by
    rw [portIs_iff, hports]
  simp only [hlost]
  by_cases hready : t.screens[n].ctx.alternate = some p ∧ ∃ q, t.screens[n].ctx.primary = some q ∧ s.ports[q].state = .lost
  · have hsome : t.screens[n].ctx.alternate.isSome = true := by rw [hready.1]; rfl
    by_cases hplays : t.screens[n].ctx.state = .running ∧ t.screens[n].ctx.active = .primary
    · rw [if_pos hready, afterLocked, if_pos ⟨hplays.1, hplays.2, hready⟩, Context.armFailover,
        if_pos ⟨hplays.1, hplays.2, hsome⟩]
    · rw [if_pos hready, afterLocked, if_neg fun h => hplays ⟨h.1, h.2.1⟩, Context.armFailover,
        if_neg fun h => hplays ⟨h.1, h.2.1⟩]
  · rw [if_neg hready, afterLocked, if_neg fun h => hready h.2.2]

/-! ### Operations that reach a screen's alarm unit and its lines -/

/-- `t` is `s` after an operation on screen `n` alone: the other screens stay, and its contact lines follow its summary (R158). -/
def Heard (n : Fin 8) (s t : State) : Prop :=
  t = { s with screens := t.screens, lines := t.lines } ∧ (∀ m : Fin 8, m ≠ n → t.screens[m] = s.screens[m]) ∧
    LinesFollow (fun m => m = n) s t

/-- An alarm event is such an operation, after any update of the screen. -/
theorem heard_alarmEvent (s : State) (n : Fin 8) (k : Screen → Screen) (f : Monitor → Monitor) :
    Heard n s ((s.modScreen n k).alarmEvent n f) := by
  refine ⟨rfl, fun m hm => ?_, fun l => ?_⟩
  · rw [alarmEvent_other hm]
    exact State.modScreen_other s n m _ hm
  · have hline := alarmEvent_line (s.modScreen n k) n f l
    refine ⟨fun m hmode howner hm => ?_, fun hno => ?_⟩
    · subst hm
      exact hline.trans (if_pos ⟨hmode, howner⟩)
    · exact hline.trans (if_neg fun ⟨hmode, howner⟩ => hno n hmode howner rfl)

section
variable {s : State} {f : Fin 8 → State → State} {P : Fin 8 → Prop} {R : Screen → Screen → Prop}

/-- What a run of such operations over some screens leaves: those that `P` picks have moved as `R` says. -/
theorem forEach_heard (hpick : ∀ n t, t.screens[n] = s.screens[n] → P n → Heard n t (f n t) ∧ R t.screens[n] (f n t).screens[n])
    (hpass : ∀ n t, t.screens[n] = s.screens[n] → ¬P n → f n t = t) (items : List (Fin 8)) (hd : items.Nodup) (t : State)
    (ht : ∀ n ∈ items, t.screens[n] = s.screens[n]) : let u := forEach items f t
    u = { t with screens := u.screens, lines := u.lines } ∧ LinesFollow (fun n => n ∈ items ∧ P n) t u ∧
      ∀ n : Fin 8, (¬(n ∈ items ∧ P n) → u.screens[n] = t.screens[n]) ∧ (n ∈ items → P n → R t.screens[n] u.screens[n]) := by
  induction items generalizing t with
  | nil =>
    exact ⟨rfl, fun l => ⟨fun n _ _ h => absurd h.1 List.not_mem_nil, fun _ => rfl⟩,
      fun n => ⟨fun _ => rfl, fun h => absurd h List.not_mem_nil⟩⟩
  | cons a items ih =>
    obtain ⟨ha, hd⟩ := List.nodup_cons.1 hd
    have htail (n : Fin 8) (hn : n ∈ items) : t.screens[n] = s.screens[n] := ht n (List.mem_cons_of_mem _ hn)
    have hne (n : Fin 8) (hn : n ∈ items) : n ≠ a := fun h => ha (h ▸ hn)
    by_cases hp : P a
    · have hself (m : Fin 8) (h : m = a) : m ∈ a :: items ∧ P m := by
        rw [h]
        exact ⟨List.mem_cons_self, hp⟩
      obtain ⟨⟨hrest, hothers, hlines⟩, hown⟩ := hpick a t (ht a List.mem_cons_self) hp
      obtain ⟨irest, ilines, iscreens⟩ := ih hd (f a t) fun n hn => (hothers n (hne n hn)).trans (htail n hn)
      have hstay : (forEach items f (f a t)).screens[a] = (f a t).screens[a] := (iscreens a).1 fun h => ha h.1
      refine ⟨?_, fun l => ⟨fun n hmode howner hn => ?_, fun hno => ?_⟩, fun n => ⟨fun hn => ?_, fun hn hpn => ?_⟩⟩
      · exact irest.trans (congrArg (fun w : State => { w with
          screens := (forEach items f (f a t)).screens, lines := (forEach items f (f a t)).lines }) hrest)
      · obtain ⟨hfollow, hleave⟩ := hlines l
        rcases List.mem_cons.1 hn.1 with rfl | hmem
        · have hline := hfollow n hmode howner rfl
          refine ((ilines l).2 fun m _ hm hin => ?_).trans (hline.trans ?_)
          · rw [hline] at hm
            exact ha (Option.some.inj (howner.symm.trans hm) ▸ hin.1)
          · rw [← hstay]
            rfl
        · have hline : (f a t).lines[l] = t.lines[l] :=
            hleave fun m _ hm h => hne n hmem ((Option.some.inj (howner.symm.trans hm)).trans h)
          have := (ilines l).1 n (by rw [hline]; exact hmode) (by rw [hline]; exact howner) ⟨hmem, hn.2⟩
          rw [hline] at this
          exact this
      · have hline : (f a t).lines[l] = t.lines[l] :=
          (hlines l).2 fun m hmode hm h => hno m hmode hm (hself m h)
        refine ((ilines l).2 fun m hmode hm hin => ?_).trans hline
        rw [hline] at hmode hm
        exact hno m hmode hm ⟨List.mem_cons_of_mem _ hin.1, hin.2⟩
      · have hna : n ≠ a := fun h => hn (hself n h)
        exact ((iscreens n).1 fun h => hn ⟨List.mem_cons_of_mem _ h.1, h.2⟩).trans (hothers n hna)
      · rcases List.mem_cons.1 hn with rfl | hmem
        · have := hown
          rw [← hstay] at this
          exact this
        · have := (iscreens n).2 hmem hpn
          rw [hothers n (hne n hmem)] at this
          exact this
    · have hskip : forEach (a :: items) f t = forEach items f t := congrArg (forEach items f) (hpass a t (ht a List.mem_cons_self) hp)
      have hpicked (n : Fin 8) : (n ∈ a :: items ∧ P n) ↔ (n ∈ items ∧ P n) := by
        rw [List.mem_cons]
        exact ⟨fun h => ⟨h.1.resolve_left fun e => hp (e ▸ h.2), h.2⟩, fun h => ⟨.inr h.1, h.2⟩⟩
      obtain ⟨irest, ilines, iscreens⟩ := ih hd t htail
      simp only [hskip, hpicked]
      exact ⟨irest, ilines, fun n => ⟨(iscreens n).1, fun hn hpn => (iscreens n).2 ((hpicked n).1 ⟨hn, hpn⟩).1 hpn⟩⟩

theorem forScreens_heard (hpick : ∀ n t, t.screens[n] = s.screens[n] → P n → Heard n t (f n t) ∧ R t.screens[n] (f n t).screens[n])
    (hpass : ∀ n t, t.screens[n] = s.screens[n] → ¬P n → f n t = t) : let u := forScreens f s
    u = { s with screens := u.screens, lines := u.lines } ∧ LinesFollow P s u ∧
      ∀ n : Fin 8, (¬P n → u.screens[n] = s.screens[n]) ∧ (P n → R s.screens[n] u.screens[n]) := by
  have h := forEach_heard hpick hpass _ (List.nodup_finRange 8) s fun _ _ => rfl
  simp only [List.mem_finRange, true_and, forall_const] at h
  exact h

end

/-! ### Slips -/

/-- A unit that is offered an occurrence, with its summary formed again, has taken it (R116, R129). -/
theorem offer_occurrenceOf (id : Fin 54) (m : Monitor) : OccurrenceOf id m (m.offer id).summarise := by
  refine ⟨?_, summarise_right _, fun i hi => offer_other hi m, fun hw => ?_, fun hw => ?_⟩
  · rw [Monitor.summarise, offer_rest]
  · have hoff : m.watches id = false := by rwa [← Bool.not_eq_true, watches_iff]
    rw [offer_unwatched hoff]
    exact ⟨rfl, rfl⟩
  · have hon : m.watches id = true := (watches_iff m id).2 hw
    have halarm : (m.offer id).summarise.alarms[id] = _ := offer_alarm hon
    have hflag : (m.offer id).summarise.pending[id] = _ := offer_pending hon
    have htold : (m.alarms[id].resumed.occurrence (m.record id)).2 = true ↔
        (m.offer id).summarise.alarms[id].state = .raised ∧
          (m.alarms[id].resumed.state = .clear ∨ m.alarms[id].resumed.state = .qualifying) := by
      rw [halarm]
      exact ⟨occurrence_told, fun ⟨hraised, hfrom⟩ => occurrence_entersRaised hfrom hraised⟩
    refine ⟨halarm ▸ occurrence_atOccurrence _ _, ?_⟩
    rw [← htold, hflag]
    cases hp : m.pending[id] <;> split <;> simp_all

/-- A slip is one occurrence of SLIP at each screen with the port in use (R49, R113). -/
theorem slipEvent_heard (s : State) (p : Fin 12) : HearsSlip p s (s.slipEvent p) := by
  refine forScreens_heard (R := fun x y => OccurrenceOf 49 x.mon y.mon ∧ y = { x with mon := y.mon })
    (fun n t ht hn => ?_) fun n t ht hn => if_neg (by rwa [ht])
  have hocc : (if t.screens[n].ctx.activePort = some p then t.occur n slipId else t) = t.alarmEvent n (Monitor.offer slipId) :=
    if_pos (by rwa [ht])
  rw [hocc]
  refine ⟨?_, ?_⟩
  · have h := heard_alarmEvent t n id (Monitor.offer slipId)
    rwa [modScreen_self rfl] at h
  · have hscreen : (t.alarmEvent n (Monitor.offer slipId)).screens[n] = t.screens[n].occurred slipId := occur_screen t slipId
    rw [hscreen]
    exact ⟨offer_occurrenceOf 49 _, rfl⟩

/-! ### Entries to BREAK -/

/-- A unit whose instances that satisfy a condition are returned to CLEAR, with its summary formed again (R122, R129). -/
theorem clearWhere_cleared {cond : Fin 54 → Bool} {P : Fin 54 → Prop} (h : ∀ id, cond id = true ↔ P id) (m : Monitor) :
    Cleared P m (m.clearWhere cond).summarise := by
  refine ⟨by simp only [Monitor.summarise, Monitor.clearWhere], summarise_right _, fun id => ?_⟩
  rw [Monitor.summarise_alarms, Monitor.clearWhere_alarm, ← h]
  exact ⟨fun hc => if_pos hc, fun hc => if_neg hc⟩

/-- A screen that leaves RUNNING for STANDBY, with its alarm event (R47, R120, R148). -/
theorem heard_enterStandby {s : State} {n : Fin 8} (h : s.screens[n].ctx.state = .running) :
    let t := s.enterStandby n
    Heard n s t ∧ Cleared IsSilent s.screens[n].mon t.screens[n].mon ∧
      t.screens[n] = { s.screens[n] with quiet := none, ctx := { s.screens[n].ctx with state := .standby, failoverDue := false }
                                         mon := t.screens[n].mon } := by
  have hmon := alarmEvent_mon (s := s.modScreen n fun x =>
      { x with quiet := none, ctx := { x.ctx with state := .standby, failoverDue := false } }) (n := n)
    (f := fun m => m.clearWhere fun id => classOf id == .silent)
  rw [modScreen_mon rfl] at hmon
  intro t
  have ht : t = _ := enterStandby_running h
  rw [ht]
  refine ⟨heard_alarmEvent s n _ _, ?_, ?_⟩
  · rw [State.silentStops, hmon]
    exact clearWhere_cleared (fun id => by rw [beq_iff_eq, classOf_silent, IsSilent]) _
  · rw [State.silentStops, hmon, Fin.getElem_fin, alarmEvent_screens]
    simp

/-- An entry to BREAK stops every RUNNING screen with follow-source on that has the port in use (R47 to R49). -/
theorem announce_break (s : State) (p : Fin 12) : HearsBreak p s (s.announce p .brk) := by
  refine forScreens_heard (R := fun x y => Cleared IsSilent x.mon y.mon ∧
      y = { x with quiet := none, ctx := { x.ctx with state := .standby, failoverDue := false }, mon := y.mon })
    (fun n t ht hn => ?_) fun n t ht hn => if_neg (by rwa [ht])
  have hhear : State.hearAnnouncement p .brk n t = t.enterStandby n := if_pos (by rwa [ht])
  rw [hhear]
  exact heard_enterStandby (by rw [ht]; exact hn.2.2)

end Sys2Proof.Machine
end

-- Proofs/LinkTimers: the timed steps of the links and the arbiters (O55)
section
/-! Each command is its item's share of the coming boundary, less what a command has taken of it (`share_stays`,
`share_acts`). What remains is when the share ends the item, and what it then leaves. -/

namespace Sys2Proof.Machine

section
variable {s : State} {x : Share} {f : State → State} {c : Instr}

/-- A share that is taken already, or that does nothing, leaves the state. -/
theorem unlessTaken_stays (h : x ∈ s.taken ∨ f s = s) : s.unlessTaken x f = s := by
  rw [State.unlessTaken]
  split
  · rfl
  · next hc => exact h.resolve_left fun hm => hc (List.contains_iff_mem.2 hm)

theorem unlessTaken_acts (h : x ∉ s.taken) : s.unlessTaken x f = f s := if_neg fun hc => h (List.contains_iff_mem.1 hc)

theorem share_stays (hx : exec c s = live s (State.unlessTaken · x f)) (hp : s.powered = true) (h : x ∈ s.taken ∨ f s = s) :
    exec c s = .next s := by
  rw [hx, live_on hp, unlessTaken_stays h]

theorem share_acts {t : State} (hx : exec c s = live s (State.unlessTaken · x f)) (hp : s.powered = true) (h : x ∉ s.taken)
    (ht : f s = t) : exec c s = .next t := by
  rw [hx, live_on hp, unlessTaken_acts h, ht]

end

/-! ### The timers of a program port -/

section
variable {s : State} {p : Fin 12} (hp : s.powered = true)
include hp

/-- The holdover count at its last block ends, and the screens hear of the entry to LOST (R5, R8). -/
theorem holdoverExpiry_due (ht : Share.holdover p ∉ s.taken) (hst : s.ports[p].state = .holdover) (hleft : s.ports[p].holdoverLeft ≤ 1) :
    exec (.holdoverExpiry p) s = .next { s.modPort p fun x => { x with state := .lost, holdoverLeft := 0 } with
      screens := Vector.ofFn fun n => afterLost p s.screens[n], taken := .holdover p :: s.taken } := by
  refine share_acts rfl hp ht ?_
  rw [if_pos ⟨hst, hleft⟩, State.loseHoldover, announce_lost]
  rfl

theorem holdoverExpiry_notDue (h : Share.holdover p ∈ s.taken ∨ s.ports[p].state ≠ .holdover ∨ 2 ≤ s.ports[p].holdoverLeft) :
    exec (.holdoverExpiry p) s = .next s := by
  refine share_stays rfl hp (h.imp_right fun h => if_neg ?_)
  rintro ⟨hst, hleft⟩
  rcases h with h | h
  · exact h hst
  · omega

theorem fastDropWindowClose_due {w : DropWindow} (ht : Share.window p ∉ s.taken) (hw : s.ports[p].window = some w) (hleft : w.left ≤ 1) :
    exec (.fastDropWindowClose p) s =
      .next { s.modPort p fun x => { x with window := none } with taken := .window p :: s.taken } := by
  refine share_acts rfl hp ht (if_pos ?_)
  simp only [Port.windowEnds, hw, hleft, decide_true]

theorem fastDropWindowClose_notDue (h : Share.window p ∈ s.taken ∨ ∀ w, s.ports[p].window = some w → 2 ≤ w.left) :
    exec (.fastDropWindowClose p) s = .next s := by
  refine share_stays rfl hp (h.imp_right fun h => if_neg ?_)
  unfold Port.windowEnds
  split
  · next w hw =>
    have := h w hw
    simp only [decide_eq_true_eq]
    omega
  · exact Bool.false_ne_true

theorem serviceTimeout_due {a : Assembly} (ht : Share.message p ∉ s.taken) (htick : (s.blockCounter + 1).toNat % 16 = 0)
    (ha : s.ports[p].assembly = some a) (hticks : 1 ≤ a.ticks) : exec (.serviceTimeout p) s = .next { s.modPort p fun x =>
      { x with assembly := none, lastTimedOut := some a.source
               counters := { x.counters with discarded := oneMore x.counters.discarded }
               capture := offered x .service none (s.blockCounter + 1) } with taken := .message p :: s.taken } := by
  have hstale : s.staleMessage p = some a := by
    simp only [State.staleMessage, serviceTick, State.nextCounter, htick, ha, beq_self_eq_true, if_true, Option.filter_some, hticks,
      decide_true]
  refine share_acts rfl hp ht ?_
  simp only [hstale]
  rw [State.timeoutMessage, discardMessage_eq, modPort_modPort]
  rfl

theorem serviceTimeout_notDue (h : Share.message p ∈ s.taken ∨ (s.blockCounter + 1).toNat % 16 ≠ 0 ∨
    ∀ a, s.ports[p].assembly = some a → a.ticks = 0) : exec (.serviceTimeout p) s = .next s := by
  refine share_stays rfl hp (h.imp_right fun h => ?_)
  have hstale : s.staleMessage p = none := by
    rw [State.staleMessage, serviceTick]
    split
    · next htick =>
      refine Option.filter_eq_none_iff.2 fun a ha => ?_
      rcases h with h | h
      · exact absurd (beq_iff_eq.1 htick) h
      · simp only [h a ha, decide_eq_true_eq]
        omega
    · rfl
  simp only [hstale]

end

/-! ### The exchange timer of a screen port -/

section
variable {s : State} {n : Fin 8} (hp : s.powered = true)
include hp

theorem exchangeTimeout_due (ht : Share.exchange n ∉ s.taken) (hl : s.screens[n].link.link = .exchange) (hleft : s.screens[n].link.timer ≤ 1) :
    exec (.exchangeTimeout n) s = .next { s.modLink n fun x => { huntLink x with timeouts := oneMore x.timeouts } with
      taken := .exchange n :: s.taken } := by
  refine share_acts rfl hp ht (if_pos ?_)
  simp only [ScreenPort.timerEnds, hl, beq_self_eq_true, hleft, decide_true, Bool.and_self]

theorem exchangeTimeout_notDue (h : Share.exchange n ∈ s.taken ∨ s.screens[n].link.link ≠ .exchange ∨ 2 ≤ s.screens[n].link.timer) :
    exec (.exchangeTimeout n) s = .next s := by
  refine share_stays rfl hp (h.imp_right fun h => if_neg ?_)
  simp only [ScreenPort.timerEnds, Bool.and_eq_true, beq_iff_eq, decide_eq_true_eq]
  rintro ⟨hl, hleft⟩
  rcases h with h | h
  · exact h hl
  · omega

end

/-! ### Responses and reloads -/

/-- The service ticks between two counter values: one falls at every sixteenth value (R18, R168). -/
theorem ticksSince_eq (start now : Long) : ticksSince start now = (now.toNat / 16 + 2 ^ 28 - start.toNat / 16) % 2 ^ 28 := by
  have hnow := now.isLt
  have hstart := start.isLt
  simp only [ticksSince, BitVec.toNat_sub, BitVec.extractLsb'_toNat, Nat.shiftRight_eq_div_pow]
  omega

section
variable {s : State} {p : Fin 12} {r : Response} {rest : List Response} {counter : Long}

/-- The oldest response expires at a service tick with four ticks since its placing (R168). -/
theorem expires_iff : (serviceTick counter && r.expired counter) = true ↔
    counter.toNat % 16 = 0 ∧ 4 ≤ (counter.toNat / 16 + 2 ^ 28 - r.placedAt.toNat / 16) % 2 ^ 28 := by
  rw [Bool.and_eq_true, serviceTick, beq_iff_eq, Response.expired, decide_eq_true_eq, ticksSince_eq]

theorem expireOne_stays (h : ∀ r rest, s.arbiters[p].queue = r :: rest → (serviceTick counter && r.expired counter) = false) :
    s.expireOne counter p = s := by
  unfold State.expireOne
  split
  · next r rest hq => simp only [h r rest hq, Bool.false_eq_true, if_false]
  · rfl

theorem expireOne_expires (hq : s.arbiters[p].queue = r :: rest) (h : (serviceTick counter && r.expired counter) = true) :
    s.expireOne counter p =
      { s.modArb p fun a => { a with queue := rest, responsesExpired := oneMore a.responsesExpired } with
        resetPending := if r.forReset then s.resetPending.map fun x => { x with due := true } else s.resetPending } := by
  simp only [State.expireOne, hq, h, if_true]
  cases r.forReset <;> rfl

/-- A reload takes every count and the next interval (R169). -/
theorem reload_acts (hp : s.powered = true) (ht : Share.reload p ∉ s.taken) (hleft : s.arbiters[p].remainder ≤ 1) :
    ∃ left : Vector Nat 8,
      (∀ n : Fin 8, (∀ r, s.screens[n].ctx.route = some r → r.port = p → left[n] = r.count) ∧
        ((∀ r, s.screens[n].ctx.route = some r → r.port ≠ p) → left[n] = 0)) ∧
      exec (.arbiterReload p) s = .next { s.modArb p fun a =>
        { a with respLeft := a.respCount, screenLeft := left, interval := a.nextInterval, remainder := a.nextInterval } with
        taken := .reload p :: s.taken } := by
  refine ⟨_, fun n => ⟨fun r hr hport => ?_, fun hno => ?_⟩,share_acts rfl hp ht (if_pos hleft)⟩
  · rw [Fin.getElem_fin, Vector.getElem_ofFn]
    simp only [Fin.eta, hr, hport, if_true]
  · rw [Fin.getElem_fin, Vector.getElem_ofFn]
    cases hr : s.screens[n].ctx.route with
    | none => rfl
    | some r => exact if_neg (hno r hr)

end

/-- Settles O55: each command is its item's share of the coming boundary. -/
theorem linkTimersEndTheirItems : Obligations.LinkTimersEndTheirItems := by
  refine ⟨fun p s hp => ⟨holdoverExpiry_notDue hp, holdoverExpiry_due hp, fastDropWindowClose_notDue hp,
    fun w => fastDropWindowClose_due hp, serviceTimeout_notDue hp, fun a => serviceTimeout_due hp⟩, fun s hp =>
    ⟨fun n => ⟨exchangeTimeout_notDue hp, exchangeTimeout_due hp⟩, fun p => ⟨fun h => ?_, fun r rest hq h => ?_, fun h => ?_,
      reload_acts hp⟩⟩⟩
  · refine (live_on hp _).trans (congrArg _ (expireOne_stays fun r rest hq => ?_))
    rw [← Bool.not_eq_true, expires_iff]
    exact h r rest hq
  · exact (live_on hp _).trans (congrArg _ (expireOne_expires hq (expires_iff.2 h)))
  · refine share_stays rfl hp (h.imp_right fun h => if_neg ?_)
    omega

end Sys2Proof.Machine
end

-- Proofs/BlindWork: what the screens make of a frame does not look at the service assembler
section
/-! A frame's link state, buffer and descriptor work, and what the screens make of it, neither read nor change the message under
assembly at the port, nor the block counter, the straps and the power (`Blind`). It is shown for each operation of that work in turn. -/

namespace Sys2Proof.Machine

/-! ### Blind operations -/

/-- The message under assembly at a port, replaced. -/
def State.setAssembly (s : State) (p : Fin 12) (a : Option Assembly) : State := s.modPort p fun x => { x with assembly := a }

/-- An operation is the same whatever message is under assembly at port `p`, and leaves it, the block counter, the straps and
the power. -/
structure Blind (p : Fin 12) (op : State → State) : Prop where
  assembly : ∀ s a, op (s.setAssembly p a) = (op s).setAssembly p a
  counter : ∀ s, (op s).blockCounter = s.blockCounter
  straps : ∀ s, (op s).straps = s.straps
  powered : ∀ s, (op s).powered = s.powered

section
variable {p : Fin 12} {f g op : State → State}

theorem setAssembly_self (s : State) : s.setAssembly p s.ports[p].assembly = s := modPort_self rfl

theorem Blind.keeps (h : Blind p op) (s : State) : (op s).ports[p].assembly = s.ports[p].assembly := by
  have hsame := h.assembly s s.ports[p].assembly
  rw [setAssembly_self] at hsame
  rw [hsame, State.setAssembly, modPort_at]

theorem blind_id : Blind p fun s => s := ⟨fun _ _ => rfl, fun _ => rfl, fun _ => rfl, fun _ => rfl⟩

theorem Blind.comp (hg : Blind p g) (hf : Blind p f) : Blind p fun s => g (f s) :=
  ⟨fun s a => by rw [hf.assembly, hg.assembly], fun s => (hg.counter _).trans (hf.counter s), fun s => (hg.straps _).trans (hf.straps s),
    fun s => (hg.powered _).trans (hf.powered s)⟩

/-- An operation that is in each state one that is blind, and the same one whatever message is under assembly. -/
theorem blind_of (h : ∀ s, ∃ f, Blind p f ∧ op s = f s ∧ ∀ a, op (s.setAssembly p a) = f (s.setAssembly p a)) : Blind p op where
  assembly s a := by
    obtain ⟨f, hf, hs, ha⟩ := h s
    rw [ha, hs, hf.assembly]
  counter s := by
    obtain ⟨f, hf, hs, -⟩ := h s
    rw [hs, hf.counter]
  straps s := by
    obtain ⟨f, hf, hs, -⟩ := h s
    rw [hs, hf.straps]
  powered s := by
    obtain ⟨f, hf, hs, -⟩ := h s
    rw [hs, hf.powered]

theorem blind_ite {c : State → Prop} [DecidablePred c] (hc : ∀ s a, c (s.setAssembly p a) ↔ c s) (hf : Blind p f) (hg : Blind p g) :
    Blind p fun s => if c s then f s else g s := by
  refine blind_of fun s => ?_
  by_cases h : c s
  · exact ⟨f, hf, if_pos h, fun a => if_pos ((hc s a).2 h)⟩
  · exact ⟨g, hg, if_neg h, fun a => if_neg (mt (hc s a).1 h)⟩

theorem blind_forEach {α : Type} {f : α → State → State} (h : ∀ a, Blind p (f a)) (items : List α) : Blind p (forEach items f) := by
  induction items with
  | nil => exact blind_id
  | cons a items ih => exact ih.comp (h a)

/-! ### Updates -/

theorem blind_modPort {f : Port → Port} (h : ∀ x a, f { x with assembly := a } = { f x with assembly := a }) :
    Blind p fun s => s.modPort p f where
  assembly s a := by
    rw [State.setAssembly, State.setAssembly, modPort_modPort, modPort_modPort]
    exact modPort_congr (h _ _)
  counter _ := rfl
  straps _ := rfl
  powered _ := rfl

theorem blind_modScreen (n : Fin 8) (f : Screen → Screen) : Blind p fun s => s.modScreen n f :=
  ⟨fun _ _ => rfl, fun _ => rfl, fun _ => rfl, fun _ => rfl⟩

theorem blind_modArb (q : Fin 12) (f : Arbiter → Arbiter) : Blind p fun s => s.modArb q f :=
  ⟨fun _ _ => rfl, fun _ => rfl, fun _ => rfl, fun _ => rfl⟩

theorem blind_alarmEvent (n : Fin 8) (f : Monitor → Monitor) : Blind p fun s => s.alarmEvent n f :=
  ⟨fun _ _ => rfl, fun _ => rfl, fun _ => rfl, fun _ => rfl⟩

/-- Of a port but its message under assembly, all stands. -/
theorem setAssembly_port (s : State) (a : Option Assembly) (q : Fin 12) :
    (s.setAssembly p a).ports[q] = { s.ports[q] with assembly := (s.setAssembly p a).ports[q].assembly } := by
  by_cases h : q = p
  · subst h
    rw [State.setAssembly, modPort_at]
  · have hother : (s.setAssembly p a).ports[q] = s.ports[q] := State.modPort_other s p q _ h
    rw [hother]

theorem setAssembly_portIs (s : State) (a : Option Assembly) : (s.setAssembly p a).portIs = s.portIs := by
  funext q st
  cases q with
  | none => rfl
  | some q =>
    have h := congrArg Port.state (setAssembly_port (p := p) s a q)
    simp only [State.portIs]
    rw [h]

/-! ### Screens that hear announcements -/

theorem blind_leaveRunning (n : Fin 8) : Blind p fun s => s.leaveRunning n :=
  blind_ite (fun _ _ => .rfl) (((blind_alarmEvent n _).comp (blind_modScreen n _)).comp (blind_modScreen n _)) blind_id

theorem blind_enterStandby (n : Fin 8) : Blind p fun s => s.enterStandby n := by
  unfold State.enterStandby
  exact (blind_modScreen n _).comp (blind_leaveRunning n)

theorem blind_enterRunning (n : Fin 8) : Blind p fun s => s.enterRunning n := by
  refine blind_of fun s => ⟨fun t => t.modCtx n fun c =>
    let c := if c.state = .dark then c.selectSource else c
    let c := { c with state := .running, lastPosition := none, positionLost := false }
    if s.portIs c.primary .lost then c.armFailover else c, blind_modScreen n _, rfl, fun a => ?_⟩
  rw [State.enterRunning, setAssembly_portIs]

theorem blind_hearAnnouncement (q : Fin 12) (st : PortState) (n : Fin 8) : Blind p (State.hearAnnouncement q st n) := by
  cases st with
  | lost => exact blind_ite (c := fun s => s.screens[n].ctx.primary = some q) (fun _ _ => .rfl) (blind_modScreen n _) blind_id
  | locked =>
    refine blind_ite (c := fun s => s.screens[n].ctx.alternate = some q ∧ s.portIs s.screens[n].ctx.primary .lost = true)
      (fun s a => ?_) (blind_modScreen n _) blind_id
    rw [setAssembly_portIs]
    rfl
  | brk =>
    exact blind_ite (c := fun s => s.screens[n].ctx.activePort = some q ∧ s.screens[n].ctx.follow = true ∧
      s.screens[n].ctx.state = .running) (fun _ _ => .rfl) (blind_enterStandby n) blind_id
  | down | hunt | holdover => exact blind_id

theorem blind_announce (q : Fin 12) (st : PortState) : Blind p fun s => s.announce q st :=
  blind_forEach (blind_hearAnnouncement q st) _

theorem blind_occur (n : Fin 8) (id : Fin 54) : Blind p fun s => s.occur n id := blind_alarmEvent n (Monitor.offer id)

theorem blind_slipEvent (q : Fin 12) : Blind p fun s => s.slipEvent q := by
  refine blind_forEach (fun n => ?_) _
  exact blind_ite (c := fun s => s.screens[n].ctx.activePort = some q) (fun _ _ => .rfl) (blind_occur n slipId) blind_id

/-! ### Messages that leave the channel -/

theorem blind_freeChannel (q : Fin 12) (m : Sending) (lost : Bool) : Blind p fun s => s.freeChannel q m lost := by
  have hfree : Blind p fun s => s.modArb q fun a => { a with channel := none } := blind_modArb q _
  have hdue : Blind p State.resetDue := ⟨fun _ _ => rfl, fun _ => rfl, fun _ => rfl, fun _ => rfl⟩
  unfold State.freeChannel
  cases m.owner with
  | resp =>
    cases m.forReset
    · exact hfree
    · exact hdue.comp hfree
  | screen n => exact (blind_modScreen n _).comp hfree

theorem blind_abandonMessage (q : Fin 12) : Blind p fun s => s.abandonMessage q := by
  refine blind_of fun s => ?_
  cases h : s.arbiters[q].channel with
  | none =>
    have hnone (t : State) (ht : t.arbiters = s.arbiters) : t.abandonMessage q = t := by
      simp only [State.abandonMessage, ht, h]
    exact ⟨_, blind_id, hnone s rfl, fun a => hnone _ rfl⟩
  | some m =>
    by_cases hm : m.words.length ≤ m.sent
    · have hsent (t : State) (ht : t.arbiters = s.arbiters) : t.abandonMessage q = t.freeChannel q m false := by
        simp only [State.abandonMessage, ht, h, hm, if_true]
      exact ⟨_, blind_freeChannel q m false, hsent s rfl, fun a => hsent _ rfl⟩
    · have hlost (t : State) (ht : t.arbiters = s.arbiters) : t.abandonMessage q =
          (t.modArb q fun a => { a with messagesAbandoned := bump a.messagesAbandoned }).freeChannel q m true := by
        simp only [State.abandonMessage, ht, h, hm, if_false]
      exact ⟨_, (blind_freeChannel q m true).comp (blind_modArb q _), hlost s rfl, fun a => hlost _ rfl⟩

/-! ### Cues -/

theorem blind_takeFade (n : Fin 8) (t d : Nat) : Blind p fun s => s.takeFade n t d := by
  unfold State.takeFade
  split
  · exact (blind_alarmEvent n _).comp (blind_modScreen n _)
  · exact blind_modScreen n _

theorem blind_takeMute (n : Fin 8) (on : Bool) : Blind p fun s => s.takeMute n on := by
  cases on
  · exact ⟨fun _ _ => rfl, fun _ => rfl, fun _ => rfl, fun _ => rfl⟩
  · exact ⟨fun _ _ => rfl, fun _ => rfl, fun _ => rfl, fun _ => rfl⟩

theorem blind_takeQuiet (n : Fin 8) (d : Nat) : Blind p fun s => s.takeQuiet n d := by
  by_cases hd : d = 0
  · simp only [State.takeQuiet, hd, if_true]
    exact blind_modScreen n _
  · refine blind_of fun s => ?_
    let opened (t : State) : State := t.setQuiet n (some (s.blockCounter + BitVec.ofNat 32 d))
    refine ⟨fun t => if t.screens[n].quiet.isSome then opened t else (opened t).quietOpens n,
      blind_ite (fun _ _ => .rfl) (blind_modScreen n _) ((blind_alarmEvent n _).comp (blind_modScreen n _)), ?_, fun a => ?_⟩
    · exact if_neg hd
    · exact if_neg hd

theorem setAssembly_declines (s : State) (a : Option Assembly) (n : Fin 8) (x : CueAction) :
    (s.setAssembly p a).declines n x = s.declines n x := rfl

theorem blind_applyAction (n : Fin 8) (id : Nat) (x : CueAction) : Blind p fun s => s.applyAction n id x := by
  cases x with
  | contact line d =>
    cases hl : index? 16 line with
    | none => exact blind_of fun s => ⟨_, blind_id, by simp only [State.applyAction, hl], fun a => by simp only [State.applyAction, hl]⟩
    | some l =>
      have hdrive (t : State) : t.applyAction n id (.contact line d) = t.modLine l (Line.drive t.blockCounter d) := by
        simp only [State.applyAction, hl]
      simp only [hdrive]
      exact ⟨fun _ _ => rfl, fun _ => rfl, fun _ => rfl, fun _ => rfl⟩
  | fade t d => exact blind_takeFade n t d
  | mute on => exact blind_takeMute n on
  | quiet d => exact blind_takeQuiet n d
  | eqBank _ | format _ | source _ | mark _ => exact ⟨fun _ _ => rfl, fun _ => rfl, fun _ => rfl, fun _ => rfl⟩

theorem blind_fireCue (n : Fin 8) (c : Cue) : Blind p fun s => s.fireCue n c := by
  refine blind_of fun s => ⟨fun t =>
    (if t.declines n c.action then t else t.applyAction n c.id c.action).modCues n
      (updateCue c.id fun k => { k with state := .fired, outcome := some (s.outcomeOf n c.action), loadDue := false }), ?_, rfl,
    fun a => rfl⟩
  exact (blind_modScreen n _).comp (blind_ite (fun s a => by rw [setAssembly_declines]) blind_id (blind_applyAction n _ _))

/-- What an update does with one cue, given its fate (R138, R139, R142). -/
def State.actOn (n : Fin 8) (c : Cue) (fate : CueFate) (s : State) : State :=
  match fate with
  | .leave => s
  | .fire => s.fireCue n c
  | .miss => (s.modCues n (updateCue c.id fun k => { k with state := .missed, outcome := none })).occur n cueId
  | .pass => s.modCues n (updateCue c.id fun k => { k with state := .passed, outcome := none })

theorem handleCue_absent {s : State} {n : Fin 8} {id : Nat} (h : findCue id s.screens[n].cues = none) (fate : Cue → CueFate) :
    State.handleCue fate n id s = s := by
  simp only [State.handleCue, h]

theorem handleCue_found {s : State} {n : Fin 8} {id : Nat} {c : Cue} (h : findCue id s.screens[n].cues = some c) (fate : Cue → CueFate) :
    State.handleCue fate n id s = s.actOn n c (fate c) := by
  have hid : c.id = id := by simpa using List.find?_some h
  simp only [State.handleCue, h, State.actOn, hid] <;> cases fate c <;> rfl

theorem blind_actOn (n : Fin 8) (c : Cue) (fate : CueFate) : Blind p (State.actOn n c fate) := by
  cases fate with
  | leave => exact blind_id
  | fire => exact blind_fireCue n c
  | miss => exact (blind_occur n cueId).comp (blind_modScreen n _)
  | pass => exact ⟨fun _ _ => rfl, fun _ => rfl, fun _ => rfl, fun _ => rfl⟩

theorem blind_handleCue (fate : Cue → CueFate) (n : Fin 8) (id : Nat) : Blind p (State.handleCue fate n id) := by
  refine blind_of fun s => ?_
  cases hc : findCue id s.screens[n].cues with
  | none => exact ⟨_, blind_id, handleCue_absent hc fate, fun a => handleCue_absent (s := s.setAssembly p a) hc fate⟩
  | some c =>
    exact ⟨_, blind_actOn n c (fate c), handleCue_found hc fate, fun a => handleCue_found (s := s.setAssembly p a) hc fate⟩

theorem blind_passCues (fate : Cue → CueFate) (n : Fin 8) : Blind p (State.passCues fate n) :=
  blind_of fun s => ⟨_, blind_forEach (blind_handleCue fate n) (s.screens[n].cues.map (·.id)), rfl, fun _ => rfl⟩

theorem blind_handleUpdate (n : Fin 8) (cls : Step) (program position : Long) :
    Blind p fun s => s.handleUpdate n cls program position := by
  have hclear : Blind p fun s => s.modCues n (List.map (clearLoadDue program)) := blind_modScreen n _
  cases cls with
  | single => exact hclear.comp (blind_passCues _ n)
  | forward | newProgram =>
    refine hclear.comp ?_
    exact blind_of fun s => ⟨_, blind_passCues (fateAtJump s.screens[n].ctx.window program position) n, rfl, fun _ => rfl⟩
  | backward => exact hclear.comp ((blind_passCues _ n).comp (blind_modScreen n _))

/-! ### Delivery to the screens -/

theorem blind_followUpdate (n : Fin 8) (play : Bool) : Blind p fun s => s.followUpdate n play := by
  unfold State.followUpdate
  exact blind_ite (fun _ _ => .rfl) (blind_enterRunning n) (blind_ite (fun _ _ => .rfl) (blind_enterStandby n) blind_id)

theorem blind_takeUpdate (n : Fin 8) (u : Update) : Blind p fun s => s.takeUpdate n u := by
  unfold State.takeUpdate
  refine (blind_modScreen n _).comp (blind_ite (fun _ _ => .rfl) ?_ blind_id)
  exact blind_of fun s => ⟨_, blind_handleUpdate n
    (classifyUpdate s.screens[n].ctx.lastProgram s.screens[n].ctx.lastPosition u.program u.position) _ _, rfl, fun _ => rfl⟩

theorem blind_raiseUpdate (q : Fin 12) (u : Update) : Blind p fun s => s.raiseUpdate q u := by
  refine blind_forEach (fun n => ?_) _
  unfold State.hearUpdate
  exact blind_ite (fun _ _ => .rfl) ((blind_takeUpdate n u).comp (blind_followUpdate n u.play)) blind_id

theorem blind_raiseLost (q : Fin 12) (fields : Option LostFields) : Blind p fun s => s.raiseLost q fields := by
  refine blind_forEach (fun n => ?_) _
  unfold State.hearLost
  refine blind_ite (fun _ _ => .rfl) ?_ blind_id
  cases fields with
  | none => exact blind_modScreen n _
  | some f => exact (blind_modScreen n _).comp (blind_ite (fun _ _ => .rfl) (blind_enterStandby n) blind_id)

end

end Sys2Proof.Machine
end

-- Proofs/FrameWork: the class of a forward frame, and its work but for its service word
section
/-! A forward frame's arrival is its link and descriptor work (`State.frameWork`), which is blind to the service assembler, followed by
its service word (`exec_frame`, `exec_frame_plain`). The class of a frame follows from the vocabulary of the statements (R1). -/

namespace Sys2Proof.Machine

/-! ### The class of a forward frame -/

section
variable {f : LinkFrame 16} {expected : Option Nat} {e i : Nat}

/-- A frame with normal sync and a good check is classed by its index alone (R1). -/
theorem classify_of_goodFrame (h : GoodFrame f e) :
    classify expected f = classOfNormal expected e true ∧ headerIndex f.header = e := by
  obtain ⟨hsync, hcheck, hindex⟩ := h
  exact ⟨by simp [classify, normalSync, checkGood, hsync, hcheck, hindex], hindex⟩

theorem classify_good (h : GoodFrame f e) (hx : expected = some e ∨ (expected = none ∧ e ≤ 47)) : classify expected f = .good := by
  rw [(classify_of_goodFrame h).1]
  rcases hx with rfl | ⟨rfl, he⟩
  · simp [classOfNormal]
  · simp [classOfNormal, he]

theorem classify_misplaced (h : GoodFrame f e) (hx : expected = some i) (hne : e ≠ i) : classify expected f = .misplaced := by
  rw [(classify_of_goodFrame h).1, hx]
  simp [classOfNormal, hne]

theorem classify_badCheck (h : BadCheckFrame f) : classify expected f = .checkError := by
  obtain ⟨hsync, hcheck⟩ := h
  simp [classify, classOfNormal, normalSync, checkGood, hsync, hcheck]

theorem classify_stop (h : StopFrame f) : classify expected f = .stop := by
  obtain ⟨hsync, hcheck⟩ := h
  simp [classify, normalSync, stopSync, checkGood, hsync, hcheck]

theorem classify_miss (h : MissFrame f ∨ (GoodFrame f e ∧ expected = none ∧ 48 ≤ e)) : classify expected f = .miss := by
  rcases h with (⟨hnormal, hstop⟩ | ⟨hstop, hcheck⟩) | ⟨h, rfl, he⟩
  · exact (if_neg hnormal).trans (if_neg fun h => hstop h.1)
  · simp [classify, normalSync, stopSync, checkGood, hstop, hcheck]
  · rw [(classify_of_goodFrame h).1]
    have : ¬ e ≤ 47 := by omega
    simp [classOfNormal, this]

end

/-! ### The port's work is blind to its assembler -/

section
variable {p : Fin 12}

theorem setAssembly_at (s : State) (a : Option Assembly) : (s.setAssembly p a).ports[p] = { s.ports[p] with assembly := a } :=
  modPort_at s p _

theorem blind_offerError (kind : ErrorKind) (index : Option Nat) : Blind p fun s => s.offerError p kind index s.blockCounter := by
  refine blind_of fun s => ⟨fun t => t.modPort p (Port.capturing kind index s.blockCounter), blind_modPort fun x a => ?_, rfl,
    fun _ => rfl⟩
  simp only [capturing_eq]
  rfl

theorem blind_count (f : PortCounters → PortCounters) : Blind p fun s => s.count p f := blind_modPort fun _ _ => rfl

theorem blind_leaveLocked (st : PortState) : Blind p fun s => s.leaveLocked p st :=
  (blind_announce p st).comp ((blind_abandonMessage p).comp (blind_modPort fun _ _ => rfl))

theorem blind_writeBuffer (slots : Slots) : Blind p fun s => s.writeBuffer p slots := by
  have hwrite : Blind p fun s => s.modPort p (Port.write slots) := by
    refine blind_modPort fun x a => ?_
    unfold Port.write
    split <;> rfl
  refine blind_ite (c := fun s => s.ports[p].buffer.length ≥ 32) (fun s a => ?_) ((blind_slipEvent p).comp hwrite) hwrite
  rw [setAssembly_at]

theorem blind_takeCheckError (index : Option Nat) : Blind p fun s => s.takeCheckError p index := by
  have hnoted : Blind p fun s => ((s.count p fun c => { c with checkErrors := bump c.checkErrors }).offerError p .check index
      s.blockCounter).modPort p fun x => { x with missRun := 0 } :=
    (blind_modPort fun _ _ => rfl).comp ((blind_offerError .check index).comp (blind_count _))
  refine Blind.comp (g := fun s => if s.ports[p].settings.dropEnable = true ∧ s.ports[p].settings.dropCount ≤ s.ports[p].widen.count
    then (s.count p fun c => { c with fastDrops := bump c.fastDrops }).leaveLocked p .lost
    else (s.modPort p fun x => { x with window := if x.settings.dropEnable then some x.widen else none }).writeBuffer p
      s.ports[p].conceal) ?_ hnoted
  refine blind_ite (fun s a => ?_) ((blind_leaveLocked .lost).comp (blind_count _)) ?_
  · rw [setAssembly_at]
    rfl
  · refine blind_of fun s => ⟨_, (blind_writeBuffer s.ports[p].conceal).comp (blind_modPort fun _ _ => ?_), rfl, fun a => ?_⟩
    · rfl
    · rw [setAssembly_at]

theorem blind_takeSyncMiss (index : Option Nat) : Blind p fun s => s.takeSyncMiss p index := by
  have hnoted : Blind p fun s => (s.offerError p .sync index s.blockCounter).modPort p fun x => { x with missRun := x.missRun + 1 } :=
    (blind_modPort fun _ _ => rfl).comp (blind_offerError .sync index)
  refine Blind.comp (g := fun s => if 3 ≤ s.ports[p].missRun then
    s.leaveLocked p (if s.ports[p].settings.holdover = 0 then .lost else .holdover) else s) ?_ hnoted
  refine blind_ite (fun s a => by rw [setAssembly_at]) ?_ blind_id
  exact blind_of fun s => ⟨_, blind_leaveLocked (if s.ports[p].settings.holdover = 0 then .lost else .holdover), rfl,
    fun a => by rw [setAssembly_at]⟩

theorem blind_takeLocked (cls : FrameClass) (slots : Slots) (index : Option Nat) : Blind p fun s => s.takeLocked p cls slots index := by
  cases cls with
  | good => exact (blind_writeBuffer slots).comp (blind_modPort fun _ _ => rfl)
  | checkError => exact blind_takeCheckError index
  | stop =>
    refine Blind.comp (g := fun s => if 8 ≤ s.ports[p].stopRun then (s.count p PortCounters.stop).leaveLocked p .brk
      else s.writeBuffer p silence) ?_ (blind_modPort (f := fun x => { x with missRun := 0 }) fun _ _ => rfl)
    exact blind_ite (fun s a => by rw [setAssembly_at]) ((blind_leaveLocked .brk).comp (blind_count _)) (blind_writeBuffer silence)
  | miss | misplaced => exact blind_takeSyncMiss index

theorem blind_holdoverErrors (cls : FrameClass) (index : Option Nat) : Blind p fun s => s.holdoverErrors p cls index := by
  cases cls with
  | checkError => exact (blind_offerError .check index).comp (blind_count _)
  | miss | misplaced => exact blind_offerError .sync index
  | good | stop => exact blind_id

/-- What a frame that is counted in HUNT, HOLDOVER, LOST or BREAK makes of the port's state, once its good-frame run is `run` (R2,
R5, R6). -/
def State.seekingMoves (p : Fin 12) (st : PortState) (run : Nat) (cls : FrameClass) (slots : Slots) (next : Option Nat)
    (s : State) : State :=
  if st ≠ .brk ∧ 8 ≤ s.ports[p].stopRun then
    ((s.count p PortCounters.stop).modPort p fun x => { x with state := .brk, holdoverLeft := 0 }).announce p .brk
  else if st = .brk ∧ cls = .good then (s.modPort p fun x => { x with state := .hunt, goodRun := 1 }).announce p .hunt
  else if 4 ≤ run then ((s.count p (PortCounters.lockFrom st)).modPort p (Port.enterLocked slots next)).announce p .locked
  else s

/-- The good-frame run and the expected index after a frame that is counted. -/
def Port.counting (cls : FrameClass) (next : Option Nat) (x : Port) : Port :=
  { x with goodRun := nextGoodRun x.goodRun cls, expected := if nextGoodRun x.goodRun cls = 0 then none else next }

theorem takeSeeking_eq (s : State) (cls : FrameClass) (slots : Slots) (next : Option Nat) : s.takeSeeking p cls slots next =
    (s.modPort p (Port.counting cls next)).seekingMoves p s.ports[p].state (nextGoodRun s.ports[p].goodRun cls) cls slots next := rfl

theorem blind_seekingMoves (st : PortState) (run : Nat) (cls : FrameClass) (slots : Slots) (next : Option Nat) :
    Blind p (State.seekingMoves p st run cls slots next) := by
  refine blind_ite (fun s a => by rw [setAssembly_at]) ?_ (blind_ite (fun _ _ => .rfl) ?_ (blind_ite (fun _ _ => .rfl) ?_ blind_id))
  · exact (blind_announce p .brk).comp ((blind_modPort fun _ _ => rfl).comp (blind_count _))
  · exact (blind_announce p .hunt).comp (blind_modPort fun _ _ => rfl)
  · exact (blind_announce p .locked).comp ((blind_modPort fun _ _ => rfl).comp (blind_count _))

theorem blind_takeSeeking (cls : FrameClass) (slots : Slots) (next : Option Nat) :
    Blind p fun s => s.takeSeeking p cls slots next := by
  simp only [takeSeeking_eq]
  refine blind_of fun s => ⟨_, (blind_seekingMoves s.ports[p].state (nextGoodRun s.ports[p].goodRun cls) cls slots next).comp
    (blind_modPort (f := Port.counting cls next) fun _ _ => rfl), rfl, fun a => by rw [setAssembly_at]⟩

theorem blind_takeLinkFrame (cls : FrameClass) (slots : Slots) (carried : Nat) (index : Option Nat) :
    Blind p fun s => s.takeLinkFrame p cls slots carried index := by
  have hstop : Blind p fun s => s.modPort p fun x => { x with stopRun := nextStopRun x.stopRun cls } := blind_modPort fun _ _ => rfl
  refine blind_of fun s => ?_
  let next := nextExpected s.ports[p].expected cls carried
  refine ⟨fun t => let u := t.modPort p fun x => { x with stopRun := nextStopRun x.stopRun cls }
    match s.ports[p].state with
    | .down => u
    | .locked => (u.modPort p fun x => { x with expected := next }).takeLocked p cls slots index
    | .holdover => (u.holdoverErrors p cls index).takeSeeking p cls slots next
    | .hunt | .lost | .brk => u.takeSeeking p cls slots next, ?_, rfl, fun a => ?_⟩
  · cases s.ports[p].state with
    | down => exact hstop
    | locked => exact (blind_takeLocked cls slots index).comp ((blind_modPort fun _ _ => rfl).comp hstop)
    | holdover => exact (blind_takeSeeking cls slots next).comp ((blind_holdoverErrors cls index).comp hstop)
    | hunt | lost | brk => exact (blind_takeSeeking cls slots next).comp hstop
  · unfold State.takeLinkFrame
    rw [setAssembly_at] <;> rfl

/-! ### Descriptors -/

theorem blind_goodDescriptor (u : Update) : Blind p fun s => s.goodDescriptor p u := by
  unfold State.goodDescriptor
  split
  · exact (blind_raiseUpdate p u).comp (blind_modPort fun _ _ => rfl)
  · exact (blind_raiseLost p _).comp (blind_modPort fun _ _ => rfl)

theorem blind_badDescriptor (index : Option Nat) : Blind p fun s => s.badDescriptor p index := by
  have hnoted : Blind p fun s => (s.offerError p .descriptor index s.blockCounter).modPort p fun x =>
      { x with badRun := min 9 (x.badRun + 1) } := (blind_modPort fun _ _ => rfl).comp (blind_offerError .descriptor index)
  refine Blind.comp (g := fun s => match s.ports[p].base with
    | some b => if s.ports[p].badRun ≤ 8 then
        ({ s with freeCount := s.freeCount + 1 }.modPort p fun x => { x with base := some { b with
            position := inferredPosition b.position (Config.freePosition s.freeCount), inferred := true } }).raiseUpdate p
          { b with position := inferredPosition b.position (Config.freePosition s.freeCount), inferred := true }
      else (s.modPort p fun x => { x with base := none, lostRaised := true }).raiseLost p none
    | none => if s.ports[p].lostRaised then s else (s.modPort p fun x => { x with lostRaised := true }).raiseLost p none) ?_ hnoted
  refine blind_of fun s => ?_
  have hdrawn : Blind p fun s => { s with freeCount := s.freeCount + 1 } := ⟨fun _ _ => rfl, fun _ => rfl, fun _ => rfl, fun _ => rfl⟩
  cases hb : s.ports[p].base with
  | some b =>
    by_cases hrun : s.ports[p].badRun ≤ 8
    · refine ⟨_, (blind_raiseUpdate p { b with position := inferredPosition b.position (Config.freePosition s.freeCount)
                                               inferred := true }).comp ((blind_modPort fun _ _ => ?_).comp hdrawn), if_pos hrun, fun a => ?_⟩
      · rfl
      · simp only [setAssembly_at, hb, hrun, if_true]
        rfl
    · refine ⟨_, (blind_raiseLost p none).comp (blind_modPort fun _ _ => ?_), if_neg hrun, fun a => ?_⟩
      · rfl
      · simp only [setAssembly_at, hb, hrun, if_false]
  | none =>
    by_cases hl : s.ports[p].lostRaised = true
    · exact ⟨_, blind_id, if_pos hl, fun a => by simp only [setAssembly_at, hb, hl, if_true]⟩
    · refine ⟨_, (blind_raiseLost p none).comp (blind_modPort fun _ _ => ?_), if_neg hl, fun a => ?_⟩
      · rfl
      · simp only [setAssembly_at, hb, hl]
        rfl

theorem blind_completeDescriptor (bytes : List (Option Byte)) (last : Nat) (broken : Bool) :
    Blind p fun s => s.completeDescriptor p bytes last broken := by
  unfold State.completeDescriptor
  cases broken with
  | true => exact blind_badDescriptor _
  | false =>
    cases (allKnown bytes).bind parseDescriptor with
    | some u => exact blind_goodDescriptor u
    | none => exact blind_badDescriptor _

theorem blind_takeHeaderByte (cls : FrameClass) (byte : Byte) (e : Nat) : Blind p fun s => s.takeHeaderByte p cls byte e := by
  have hcleared : Blind p fun s => s.modPort p fun x => { x with attempt := none } := blind_modPort fun _ _ => rfl
  refine blind_of fun s => ?_
  refine ⟨fun t => match (if e = 0 then some [] else s.ports[p].attempt) with
    | none => t
    | some bytes =>
      if 11 < e then t
      else if cls = .misplaced then (t.modPort p fun x => { x with attempt := none }).completeDescriptor p bytes e true
      else if e = 11 then
        (t.modPort p fun x => { x with attempt := none }).completeDescriptor p (bytes ++ [byteOf cls byte]) 11 false
      else t.modPort p fun x => { x with attempt := some (bytes ++ [byteOf cls byte]) }, ?_, rfl, fun a => ?_⟩
  · split
    · exact blind_id
    · next bytes hbytes =>
      refine blind_ite (fun _ _ => .rfl) blind_id (blind_ite (fun _ _ => .rfl) ?_ (blind_ite (fun _ _ => .rfl) ?_ ?_))
      · exact (blind_completeDescriptor _ _ _).comp hcleared
      · exact (blind_completeDescriptor _ _ _).comp hcleared
      · exact blind_modPort fun _ _ => rfl
  · unfold State.takeHeaderByte
    rw [setAssembly_at] <;> rfl

theorem blind_takeDescriptor (before : Port) (cls : FrameClass) (byte : Byte) :
    Blind p fun s => s.takeDescriptor p before cls byte := by
  unfold State.takeDescriptor
  split
  · exact blind_ite (fun s a => by rw [setAssembly_at]) (blind_takeHeaderByte cls byte _) blind_id
  · exact blind_id

/-! ### A frame's work but for its service word -/

/-- The link and descriptor work of a frame of a class (R1 to R6, R9, R11, R14 to R16; order: assumption log 5). -/
def State.frameWork (s : State) (p : Fin 12) (f : LinkFrame 16) (cls : FrameClass) : State :=
  ((s.drawIndex s.ports[p].expected cls).takeLinkFrame p cls f.slots (headerIndex f.header)
    (s.arrivalIndex s.ports[p].expected cls (headerIndex f.header))).takeDescriptor p s.ports[p] cls (headerByte f.header)

theorem blind_frameWork (f : LinkFrame 16) (cls : FrameClass) : Blind p fun s => s.frameWork p f cls := by
  refine blind_of fun s => ?_
  let x := s.ports[p]
  have hdraw : Blind p fun t => t.drawIndex x.expected cls := by
    unfold State.drawIndex
    split
    · exact ⟨fun _ _ => rfl, fun _ => rfl, fun _ => rfl, fun _ => rfl⟩
    · exact blind_id
  refine ⟨_, (blind_takeDescriptor x cls (headerByte f.header)).comp ((blind_takeLinkFrame cls f.slots (headerIndex f.header)
    (s.arrivalIndex x.expected cls (headerIndex f.header))).comp hdraw), rfl, fun a => ?_⟩
  unfold State.frameWork
  rw [setAssembly_at]
  rfl

end

/-! ### The service word -/

section
variable {s : State} {p : Fin 12} {cls : FrameClass} {code : ServiceCode} {word : Word} {index : Option Nat}

/-- An IDLE word leaves the assembler (R17). -/
theorem takeServiceWord_idle (hc : cls = .good ∨ cls = .stop) : s.takeServiceWord p cls .idle word index = (s, none) := by
  rcases hc with rfl | rfl <;> rfl

/-- A frame that would abandon a message leaves an assembler that has none (R17). -/
theorem takeServiceWord_none (hc : cls = .checkError ∨ cls = .miss ∨ cls = .misplaced) (ha : s.ports[p].assembly = none) :
    s.takeServiceWord p cls code word index = (s, none) := by
  rcases hc with rfl | rfl | rfl <;> simp only [State.takeServiceWord, ha]

/-- A discarded message leaves the assembler and is offered to the capture record (R17, R20, R21). -/
theorem discardMessage_dropped (s : State) (p : Fin 12) (index : Option Nat) :
    ((s.modPort p fun x => { x with assembly := none }).discardMessage p index s.blockCounter) =
      s.modPort p (discarded index s.blockCounter) := by
  rw [discardMessage_eq, modPort_modPort]
  rfl

/-- A CHECK ERROR, MISS or MISPLACED frame abandons the message under assembly (R17). -/
theorem takeServiceWord_abandons {a : Assembly} (hc : cls = .checkError ∨ cls = .miss ∨ cls = .misplaced)
    (ha : s.ports[p].assembly = some a) : s.takeServiceWord p cls code word index =
      (s.modPort p (discarded index s.blockCounter), none) := by
  rw [← discardMessage_dropped]
  rcases hc with rfl | rfl | rfl <;> simp only [State.takeServiceWord, ha]

end

/-! ### The arrival of a forward frame -/

section
variable {s : State} {p : Fin 12} {f : LinkFrame 16} {cls : FrameClass} {index : Option Nat}

theorem exec_programFrame (hp : s.powered = true) : exec (.programFrameArrival p f) s = .next (s.frameArrives p f) :=
  live_on hp fun s => s.frameArrives p f

/-- A frame at a port that is not DOWN does its link and descriptor work, then its service word; a message complete in itself goes
to the service unit (assumption log 5). -/
theorem exec_frame (hp : s.powered = true) (hst : s.ports[p].state ≠ .down) (hc : classify s.ports[p].expected f = cls) {t : State}
    {words : Option (List Word)} (hw : (s.frameWork p f cls).takeServiceWord p cls (headerCode f.header) f.service
      (s.arrivalIndex s.ports[p].expected cls (headerIndex f.header)) = (t, words)) :
    exec (.programFrameArrival p f) s = .next (match (generalizing := false) words with
      | some l => t.takeMessage p l
      | none => t) := by
  subst hc
  refine (exec_programFrame hp).trans (congrArg _ ((if_neg hst).trans ?_))
  rw [State.frameWork] at hw
  simp only [hw] <;> cases words <;> rfl

/-- A frame that is a GOOD or STOP frame with IDLE, or that finds no message to abandon, does its link and descriptor work alone. -/
theorem exec_frame_plain (hp : s.powered = true) (hst : s.ports[p].state ≠ .down) (hc : classify s.ports[p].expected f = cls)
    (h : ((cls = .good ∨ cls = .stop) ∧ headerCode f.header = .idle) ∨
      ((cls = .checkError ∨ cls = .miss ∨ cls = .misplaced) ∧ s.ports[p].assembly = none)) :
    exec (.programFrameArrival p f) s = .next (s.frameWork p f cls) := by
  refine exec_frame hp hst hc (words := none) ?_
  rcases h with ⟨hcls, hcode⟩ | ⟨hcls, ha⟩
  · rw [hcode, takeServiceWord_idle hcls]
  · exact takeServiceWord_none hcls (((blind_frameWork f cls).keeps s).trans ha)

end

end Sys2Proof.Machine
end

-- Proofs/SeekingFrames: frames at a port that is not LOCKED (O35)
section
/-! In HUNT, LOST, HOLDOVER and BREAK a frame's work is an update of the port (`Port.counted`) and then what the runs make of its state
(`frameWork_seeking`, `seekingMoves_stays` and its companions). Each clause is one class of frame in that equation. -/

namespace Sys2Proof.Machine

/-! ### A frame that is counted -/

/-- What HOLDOVER alone counts and captures of a frame (R5). -/
def Port.heldError (cls : FrameClass) (index : Option Nat) (counter : Long) (x : Port) : Port :=
  if x.state = .holdover then
    match cls with
    | .checkError => { x with counters := { x.counters with checkErrors := oneMore x.counters.checkErrors }
                              capture := offered x .check index counter }
    | .miss | .misplaced => { x with capture := offered x .sync index counter }
    | .good | .stop => x
  else x

/-- A port after a frame that is counted in HUNT, HOLDOVER, LOST or BREAK, but for its state (R2, R5, R6). -/
def Port.counted (cls : FrameClass) (index : Option Nat) (counter : Long) (next : Option Nat) (x : Port) : Port :=
  ({ x with stopRun := nextStopRun x.stopRun cls }.heldError cls index counter).counting cls next

section
variable {s : State} {p : Fin 12} {f : LinkFrame 16} {cls : FrameClass}

theorem heldError_parts (cls : FrameClass) (index : Option Nat) (counter : Long) (x : Port) :
    (x.heldError cls index counter).state = x.state ∧ (x.heldError cls index counter).goodRun = x.goodRun ∧
      (x.heldError cls index counter).stopRun = x.stopRun := by
  unfold Port.heldError
  split
  · cases cls <;> exact ⟨rfl, rfl, rfl⟩
  · exact ⟨rfl, rfl, rfl⟩

theorem holdoverErrors_eq {index : Option Nat} (h : s.ports[p].state = .holdover) :
    s.holdoverErrors p cls index = s.modPort p (Port.heldError cls index s.blockCounter) := by
  cases cls with
  | checkError =>
    refine (modPort_modPort s p _ _).trans (modPort_congr ?_)
    rw [capturing_eq, Port.heldError, if_pos h]
    rfl
  | miss | misplaced =>
    refine modPort_congr ?_
    rw [capturing_eq, Port.heldError, if_pos h]
  | good | stop =>
    exact (modPort_self (ite_self _)).symm

section
variable {index : Option Nat} {counter : Long} {next : Option Nat} (x : Port)

theorem counted_misplaced : x.counted .misplaced index counter next =
    { x with goodRun := 1, stopRun := 0, expected := next
             capture := if x.state = .holdover then offered x .sync index counter else x.capture } := by
  unfold Port.counted Port.heldError Port.counting
  split <;> rfl

theorem counted_miss : x.counted .miss index counter next =
    { x with goodRun := 0, stopRun := 0, expected := none
             capture := if x.state = .holdover then offered x .sync index counter else x.capture } := by
  unfold Port.counted Port.heldError Port.counting
  split <;> rfl

theorem counted_checkError : x.counted .checkError index counter next =
    { x with goodRun := 0, stopRun := 0, expected := none
             counters := { x.counters with
               checkErrors := if x.state = .holdover then oneMore x.counters.checkErrors else x.counters.checkErrors }
             capture := if x.state = .holdover then offered x .check index counter else x.capture } := by
  unfold Port.counted Port.heldError Port.counting
  split <;> rfl

theorem counted_stop : x.counted .stop index counter next =
    { x with goodRun := 0, stopRun := min 8 (x.stopRun + 1), expected := none } := by
  unfold Port.counted Port.heldError Port.counting
  split <;> rfl

end

/-- A frame at a port that is neither DOWN nor LOCKED is counted, and then the runs settle the port's state (R2, R5, R6). -/
theorem frameWork_seeking (hd : s.ports[p].state ≠ .down) (hl : s.ports[p].state ≠ .locked) : s.frameWork p f cls =
    ((s.drawIndex s.ports[p].expected cls).modPort p (Port.counted cls
      (s.arrivalIndex s.ports[p].expected cls (headerIndex f.header)) s.blockCounter
      (nextExpected s.ports[p].expected cls (headerIndex f.header)))).seekingMoves p s.ports[p].state
        (nextGoodRun s.ports[p].goodRun cls) cls f.slots (nextExpected s.ports[p].expected cls (headerIndex f.header)) := by
  generalize hindex : s.arrivalIndex s.ports[p].expected cls (headerIndex f.header) = index
  generalize hdrawn : s.drawIndex s.ports[p].expected cls = d
  have hport : d.ports[p] = s.ports[p] ∧ d.blockCounter = s.blockCounter := by
    rw [← hdrawn, State.drawIndex]
    split <;> exact ⟨rfl, rfl⟩
  have hwork : s.frameWork p f cls = d.takeLinkFrame p cls f.slots (headerIndex f.header) index := by
    rw [State.frameWork, hindex, hdrawn, State.takeDescriptor]
    split
    · next hst _ => exact absurd hst hl
    · rfl
  rw [hwork]
  let stopped : State := d.modPort p fun x => { x with stopRun := nextStopRun x.stopRun cls }
  let held := stopped.modPort p (Port.heldError cls index d.blockCounter)
  have hstopped : stopped.ports[p] = { s.ports[p] with stopRun := nextStopRun s.ports[p].stopRun cls } := by
    rw [modPort_at, hport.1]
  have hheld : held.ports[p].state = s.ports[p].state ∧ held.ports[p].goodRun = s.ports[p].goodRun := by
    rw [modPort_at, (heldError_parts cls index _ _).1, (heldError_parts cls index _ _).2.1, hstopped]
    exact ⟨rfl, rfl⟩
  have hlink : d.takeLinkFrame p cls f.slots (headerIndex f.header) index =
      held.takeSeeking p cls f.slots (nextExpected s.ports[p].expected cls (headerIndex f.header)) := by
    have hsame (h : s.ports[p].state ≠ .holdover) : held = stopped := by
      exact modPort_self (if_neg (by rw [hstopped]; exact h))
    unfold State.takeLinkFrame
    rw [hport.1]
    cases hst : s.ports[p].state with
    | down => exact absurd hst hd
    | locked => exact absurd hst hl
    | holdover =>
      have herrors : stopped.holdoverErrors p cls index = held := holdoverErrors_eq (by rw [hstopped]; exact hst)
      simp only [hst, ← herrors]
      rfl
    | hunt | lost | brk =>
      rw [hsame (by rw [hst]; decide)]
      simp only [hst]
      rfl
  rw [hlink, takeSeeking_eq, hheld.1, hheld.2, modPort_modPort, modPort_modPort, hport.2]
  rfl

end

/-! ### What the runs make of the state -/

section
variable {s : State} {p : Fin 12} {st : PortState} {run : Nat} {cls : FrameClass} {slots : Slots} {next : Option Nat}

/-- Neither eight STOP frames nor a fourth good frame, and no GOOD frame in BREAK, leave the state (R2, R6). -/
theorem seekingMoves_stays (hstop : st = .brk ∨ s.ports[p].stopRun ≤ 7) (hgood : st ≠ .brk ∨ cls ≠ .good) (hrun : run ≤ 3) :
    s.seekingMoves p st run cls slots next = s := by
  unfold State.seekingMoves
  rw [if_neg, if_neg, if_neg]
  · omega
  · rintro ⟨hst, hcls⟩
    exact hgood.elim (fun h => h hst) fun h => h hcls
  · rintro ⟨hst, hrun⟩
    exact hstop.elim hst fun h => by omega

/-- The eighth STOP frame in a row enters BREAK (R6). -/
theorem seekingMoves_breaks (hst : st ≠ .brk) (hstop : 8 ≤ s.ports[p].stopRun) : s.seekingMoves p st run cls slots next =
    (s.modPort p fun x => { x with state := .brk, holdoverLeft := 0
                                   counters := { x.counters with stopEntries := oneMore x.counters.stopEntries } }).announce p .brk := by
  unfold State.seekingMoves
  rw [if_pos ⟨hst, hstop⟩]
  exact congrArg (State.announce · p .brk) (modPort_modPort s p _ _)

/-- A GOOD frame in BREAK enters HUNT, which no screen hears (R6, R8). -/
theorem seekingMoves_hunts (hst : st = .brk) (hcls : cls = .good) : s.seekingMoves p st run cls slots next =
    s.modPort p fun x => { x with state := .hunt, goodRun := 1 } := by
  unfold State.seekingMoves
  rw [if_neg fun h => h.1 hst, if_pos ⟨hst, hcls⟩]
  exact announce_unheard _ p (.inl rfl)

/-- The fourth good frame in a row enters LOCKED, which the screens hear (R2, R8). -/
theorem seekingMoves_locks (hst : st ≠ .brk) (hstop : s.ports[p].stopRun ≤ 7) (hrun : 4 ≤ run) :
    s.seekingMoves p st run cls slots next =
      let t := s.modPort p fun x => { x with counters := x.counters.lockFrom st }.enterLocked slots next
      { t with screens := Vector.ofFn fun n => afterLocked t.ports p t.screens[n] } := by
  unfold State.seekingMoves
  rw [if_neg (by omega), if_neg fun h => hst h.1, if_pos hrun, announce_locked, State.count, modPort_modPort]

end

/-! ### The statement -/

section
variable {s : State} {p : Fin 12} {f : LinkFrame 16} {e : Nat}

/-- The three states that look for four good frames (R2, R5). -/
def PortState.Seeks (st : PortState) : Prop := st = .hunt ∨ st = .lost ∨ st = .holdover

theorem PortState.Seeks.not {st : PortState} (h : st.Seeks) : st ≠ .down ∧ st ≠ .locked ∧ st ≠ .brk := by
  rcases h with rfl | rfl | rfl <;> decide

theorem seeks_or_break {st : PortState} (h : st.Seeks ∨ st = .brk) : st ≠ .down ∧ st ≠ .locked := by
  rcases h with h | rfl
  · exact ⟨h.not.1, h.not.2.1⟩
  · decide

/-- A class of frame other than CHECK ERROR draws no index. -/
theorem drawIndex_none {cls : FrameClass} (h : cls ≠ .checkError) (expected : Option Nat) : s.drawIndex expected cls = s :=
  if_neg fun hc => h hc.1

/-- A CHECK ERROR draws an index where none is expected (assumption log 6). -/
theorem drawIndex_checkError (expected : Option Nat) : s.drawIndex expected .checkError =
    { s with freeCount := if expected = none then s.freeCount + 1 else s.freeCount } := by
  cases expected <;> rfl

theorem arrivalIndex_checkError (expected : Option Nat) (carried : Nat) : s.arrivalIndex expected .checkError carried =
    if expected = none then Config.freeIndex s.freeCount else expected := by
  cases expected <;> rfl

/-- A GOOD frame that is not placed against another index is a GOOD one (R1). -/
theorem frameWork_good (hg : GoodFrame f e) (hd : s.ports[p].state ≠ .down) (hl : s.ports[p].state ≠ .locked) :
    s.frameWork p f .good = (s.modPort p fun x => { x with goodRun := x.goodRun + 1, stopRun := 0, expected := some ((e + 1) % 48) }
      ).seekingMoves p s.ports[p].state (s.ports[p].goodRun + 1) .good f.slots (some ((e + 1) % 48)) := by
  rw [frameWork_seeking hd hl, drawIndex_none (by decide), hg.2.2]
  refine congrArg (State.seekingMoves p _ _ _ _ _) (modPort_congr ?_)
  unfold Port.counted Port.heldError Port.counting
  simp [nextGoodRun, nextStopRun, nextExpected]

/-- A frame that ends the run or begins a new one leaves the state, below the eighth STOP frame (R2, R6). -/
theorem frameWork_ends {cls : FrameClass} (hcls : cls ≠ .good) (h : s.ports[p].state.Seeks ∨ s.ports[p].state = .brk)
    (hstop : cls ≠ .stop ∨ s.ports[p].state = .brk ∨ s.ports[p].stopRun ≤ 6) : s.frameWork p f cls =
      (s.drawIndex s.ports[p].expected cls).modPort p (Port.counted cls
        (s.arrivalIndex s.ports[p].expected cls (headerIndex f.header)) s.blockCounter
        (nextExpected s.ports[p].expected cls (headerIndex f.header))) := by
  have hport : (s.drawIndex s.ports[p].expected cls).ports[p] = s.ports[p] := by
    unfold State.drawIndex
    split <;> rfl
  have hrun : nextGoodRun s.ports[p].goodRun cls ≤ 3 := by
    cases cls with
    | good => exact absurd rfl hcls
    | misplaced | checkError | stop | miss => exact of_decide_eq_true rfl
  rw [frameWork_seeking (seeks_or_break h).1 (seeks_or_break h).2]
  refine seekingMoves_stays ?_ (.inr hcls) hrun
  have hruns : ((s.drawIndex s.ports[p].expected cls).modPort p (Port.counted cls
      (s.arrivalIndex s.ports[p].expected cls (headerIndex f.header)) s.blockCounter
      (nextExpected s.ports[p].expected cls (headerIndex f.header)))).ports[p].stopRun = nextStopRun s.ports[p].stopRun cls := by
    rw [modPort_at, hport]
    exact (heldError_parts cls _ _ { s.ports[p] with stopRun := nextStopRun s.ports[p].stopRun cls }).2.2
  rw [hruns]
  by_cases hs : cls = .stop
  · subst hs
    exact hstop.elim (fun h => absurd rfl h) (Or.imp_right fun h => Nat.le_trans (Nat.min_le_right 8 _) (by omega))
  · cases cls with
    | stop => exact absurd rfl hs
    | good | misplaced | checkError | miss => exact .inr (Nat.zero_le 7)

/-- Frames that do the port's work alone, with what the capture record takes in HOLDOVER (R2, R5). -/
theorem exec_ends {cls : FrameClass} {g : Port → Port} (hp : s.powered = true) (hcls : cls ≠ .good)
    (h : s.ports[p].state.Seeks ∨ s.ports[p].state = .brk) (hc : classify s.ports[p].expected f = cls)
    (hplain : ((cls = .good ∨ cls = .stop) ∧ headerCode f.header = .idle) ∨
      ((cls = .checkError ∨ cls = .miss ∨ cls = .misplaced) ∧ s.ports[p].assembly = none))
    (hstop : cls ≠ .stop ∨ s.ports[p].state = .brk ∨ s.ports[p].stopRun ≤ 6)
    (hg : s.ports[p].counted cls (s.arrivalIndex s.ports[p].expected cls (headerIndex f.header)) s.blockCounter
      (nextExpected s.ports[p].expected cls (headerIndex f.header)) = g s.ports[p]) :
    exec (.programFrameArrival p f) s = .next ((s.drawIndex s.ports[p].expected cls).modPort p g) := by
  rw [exec_frame_plain hp (seeks_or_break h).1 hc hplain, frameWork_ends hcls h hstop]
  refine congrArg _ (modPort_congr ?_)
  have hport : (s.drawIndex s.ports[p].expected cls).ports[p] = s.ports[p] := by
    unfold State.drawIndex
    split <;> rfl
  rw [hport, hg]

end

/-- What an entry to LOCKED from one of the three seeking states leaves of the port (R2, R5). -/
theorem enterLocked_seeks {x : Port} (h : x.state.Seeks) (slots : Slots) (next : Option Nat) :
    ({ x with counters := x.counters.lockFrom x.state } : Port).enterLocked slots next =
      { x with state := .locked, goodRun := 0, missRun := 0, expected := next, window := none, holdoverLeft := 0, buffer := []
               started := false, lastFrame := none, conceal := slots, attempt := none, base := none, badRun := 0
               lostRaised := false
               counters := { x.counters with
                 relocks := if x.state = .lost then oneMore x.counters.relocks else x.counters.relocks
                 recoveries := if x.state = .holdover then oneMore x.counters.recoveries else x.counters.recoveries } } := by
  rcases h with h | h | h <;> simp only [h] <;> rfl

/-- Settles O35: each class of frame is one case of `frameWork_seeking`. -/
theorem seekingPortsCountTheirRuns : Obligations.SeekingPortsCountTheirRuns := by
  intro p f e s hp x seeking good next held
  have hnot (h : seeking) := PortState.Seeks.not (st := x.state) h
  have hwork (hst : x.state ≠ .down) (hg : good) : exec (.programFrameArrival p f) s = .next (s.frameWork p f .good) :=
    exec_frame_plain hp hst (classify_good hg.1 hg.2.1) (.inl ⟨.inl rfl, hg.2.2⟩)
  refine ⟨fun hd => ?_, fun hs hg hrun => ?_, fun hs hg hrun => ?_, fun hs hg => ?_, fun hs ha => ⟨fun i hg hi hne => ?_, fun hm => ?_,
    fun hb => ?_⟩, fun hst hcode => ⟨fun h => ?_, fun hs hseven => ?_⟩⟩
  · exact (exec_programFrame hp).trans (congrArg _ (if_pos hd))
  · obtain ⟨hd, hl, hb⟩ := hnot hs
    rw [hwork hd hg, frameWork_good hg.1 hd hl]
    exact congrArg _ (seekingMoves_stays (.inr (by rw [modPort_at]; exact Nat.zero_le 7)) (.inl hb) (Nat.succ_le_succ hrun))
  · obtain ⟨hd, hl, hb⟩ := hnot hs
    rw [hwork hd hg, frameWork_good hg.1 hd hl]
    refine congrArg _ ((seekingMoves_locks hb (by rw [modPort_at]; exact Nat.zero_le 7) (Nat.succ_le_succ hrun.ge)).trans ?_)
    rw [modPort_modPort]
    refine congrArg (fun t : State => { t with screens := Vector.ofFn fun n => afterLocked t.ports p t.screens[n] })
      (modPort_congr ?_)
    exact enterLocked_seeks (x := { x with goodRun := x.goodRun + 1, stopRun := 0, expected := next }) hs f.slots next
  · have hd : x.state ≠ .down := by rw [hs]; decide
    have hl : x.state ≠ .locked := by rw [hs]; decide
    rw [hwork hd hg, frameWork_good hg.1 hd hl, seekingMoves_hunts hs rfl, modPort_modPort]
  · refine exec_ends (cls := .misplaced) hp (by decide) hs (classify_misplaced hg hi hne) (.inr ⟨.inr (.inr rfl), ha⟩) (.inl (by decide)) ?_
    rw [counted_misplaced, State.arrivalIndex, hg.2.2]
    rfl
  · refine exec_ends (cls := .miss) hp (by decide) hs (classify_miss hm) (.inr ⟨.inr (.inl rfl), ha⟩) (.inl (by decide)) ?_
    exact counted_miss _
  · refine (exec_ends (cls := .checkError) hp (by decide) hs (classify_badCheck hb) (.inr ⟨.inl rfl, ha⟩) (.inl (by decide))
      rfl).trans (congrArg _ ?_)
    rw [drawIndex_checkError, arrivalIndex_checkError]
    refine congrArg (fun t : State => { t with freeCount := if x.expected = none then s.freeCount + 1 else s.freeCount })
      (modPort_congr (s := s) ?_)
    exact counted_checkError _
  · exact exec_ends (cls := .stop) hp (by decide) (h.imp_left And.left) (classify_stop hst) (.inl ⟨.inr rfl, hcode⟩)
      (.inr (h.symm.imp_right And.right)) (counted_stop _)
  · obtain ⟨hd, hl, hb⟩ := hnot hs
    refine ⟨_, exec_frame_plain hp hd (classify_stop hst) (.inl ⟨.inr rfl, hcode⟩), ?_⟩
    have hrun : 8 ≤ (s.modPort p (Port.counted .stop (s.arrivalIndex s.ports[p].expected .stop (headerIndex f.header))
        s.blockCounter (nextExpected s.ports[p].expected .stop (headerIndex f.header)))).ports[p].stopRun := by
      rw [modPort_at, counted_stop]
      exact Nat.le_min.2 ⟨Nat.le_refl 8, Nat.succ_le_succ hseven.ge⟩
    rw [frameWork_seeking hd hl, drawIndex_none (by decide), seekingMoves_breaks hb hrun, modPort_modPort]
    refine modPort_congr (s := s) ?_ ▸ announce_break _ p
    have height : min 8 (s.ports[p].stopRun + 1) = 8 := Nat.min_eq_left (Nat.succ_le_succ (Nat.le_of_eq hseven.symm))
    rw [counted_stop, height]

end Sys2Proof.Machine
end

-- Proofs/LockedFrames: frames at a LOCKED port that complete no descriptor (O36, O37)
section
/-! At a LOCKED port a frame's work is an update of the port and then what its class does (`frameWork_locked`): a write to the elastic
buffer (`Lands`), a longer sync-miss run, or an exit (`leaveLocked_eq`). The descriptor attempt takes its byte last, where the port
stays LOCKED (`takeHeaderByte_noted`). -/

namespace Sys2Proof.Machine

/-! ### Writes to the elastic buffer -/

section
variable {s t : State} {p : Fin 12} {y : Port}

theorem write_eq (slots : Slots) (x : Port) : x.write slots = buffered slots x := by
  unfold Port.write buffered
  by_cases h : 32 ≤ x.buffer.length
  · have hstarted : 15 ≤ x.buffer.length := by omega
    simp [h, hstarted, oneMore, bump]
  · have hstarted : 16 ≤ x.buffer.length + 1 ↔ 15 ≤ x.buffer.length := by omega
    simp only [ge_iff_le, h, if_false, hstarted]

/-- What hears of a port's slip does not look at the ports. -/
theorem hearsSlip_modPort (h : HearsSlip p s t) (q : Fin 12) (f : Port → Port) : HearsSlip p (s.modPort q f) (t.modPort q f) :=
  ⟨congrArg (State.modPort · q f) h.1, h.2⟩

theorem hearsSlip_ports (h : HearsSlip p s t) : t.ports = s.ports := by rw [h.1]

/-- `t` is `s` with port `p` become `y`, and a slip heard by the screens where the buffer was full (R11, R113). -/
def Lands (p : Fin 12) (y : Port) (s t : State) : Prop :=
  (s.ports[p].buffer.length ≤ 31 → t = s.modPort p fun _ => y) ∧
  (32 ≤ s.ports[p].buffer.length → HearsSlip p (s.modPort p fun _ => y) t)

theorem Lands.port (h : Lands p y s t) : t.ports[p] = y := by
  by_cases hroom : s.ports[p].buffer.length ≤ 31
  · rw [h.1 hroom, modPort_at]
  · rw [hearsSlip_ports (h.2 (by omega)), modPort_at]

theorem Lands.modPort (h : Lands p y s t) (f : Port → Port) : Lands p (f y) s (t.modPort p f) := by
  have hboth : (s.modPort p fun _ => y).modPort p f = s.modPort p fun _ => f y := modPort_modPort s p _ _
  exact ⟨fun hroom => by rw [h.1 hroom, hboth], fun hfull => hboth ▸ hearsSlip_modPort (h.2 hfull) p f⟩

theorem lands_writeBuffer (hy : y.buffer = s.ports[p].buffer) (slots : Slots) :
    Lands p (buffered slots y) s ((s.modPort p fun _ => y).writeBuffer p slots) := by
  have hwritten : (s.modPort p fun _ => y).modPort p (Port.write slots) = s.modPort p fun _ => buffered slots y :=
    (modPort_modPort s p _ _).trans (modPort_congr (write_eq slots y))
  refine ⟨fun hroom => ?_, fun hfull => ?_⟩
  · rw [State.writeBuffer, if_neg, hwritten]
    rw [modPort_at, hy]
    omega
  · rw [State.writeBuffer, if_pos, hwritten]
    · exact slipEvent_heard _ p
    · rw [modPort_at, hy]
      exact hfull

end

/-! ### Exits from LOCKED -/

section
variable {s : State} {p : Fin 12}

theorem freeChannel_ports (m : Sending) (lost : Bool) : (s.freeChannel p m lost).ports = s.ports := by
  unfold State.freeChannel
  cases m.owner with
  | resp => cases m.forReset <;> rfl
  | screen n => rfl

theorem abandonMessage_ports : (s.abandonMessage p).ports = s.ports := by
  unfold State.abandonMessage
  split
  · split
    · exact freeChannel_ports _ _
    · exact freeChannel_ports (s := s.modArb p _) _ _
  · rfl

/-- Every exit from LOCKED (R3, R8, R10, R11, R172). -/
theorem leaveLocked_eq (st : PortState) : s.leaveLocked p st =
    ((s.modPort p fun x => outOfLock st (if st = .holdover then x.settings.holdover else 0) x).abandonMessage p).announce p st := rfl

/-- An exit to LOST, which the screens hear. -/
theorem leaveLocked_lost : s.leaveLocked p .lost = { (s.modPort p (outOfLock .lost 0)).abandonMessage p with
    screens := Vector.ofFn fun n => afterLost p ((s.modPort p (outOfLock .lost 0)).abandonMessage p).screens[n] } :=
  announce_lost _ p

/-- An exit to HOLDOVER, which no screen hears. -/
theorem leaveLocked_holdover : s.leaveLocked p .holdover =
    (s.modPort p fun x => outOfLock .holdover x.settings.holdover x).abandonMessage p :=
  announce_unheard _ p (.inr (.inr rfl))

/-- An exit to BREAK, which the screens hear. -/
theorem leaveLocked_break : HearsBreak p ((s.modPort p (outOfLock .brk 0)).abandonMessage p) (s.leaveLocked p .brk) :=
  announce_break _ p

theorem announce_ports (s : State) (p : Fin 12) (st : PortState) : (s.announce p st).ports = s.ports := by
  cases st with
  | lost => rw [announce_lost]
  | locked => rw [announce_locked]
  | brk => rw [(announce_break s p).1]
  | hunt => rw [announce_unheard s p (.inl rfl)]
  | down => rw [announce_unheard s p (.inr (.inl rfl))]
  | holdover => rw [announce_unheard s p (.inr (.inr rfl))]

theorem leaveLocked_state (st : PortState) : (s.leaveLocked p st).ports[p].state = st := by
  have hports : (s.leaveLocked p st).ports =
      (s.modPort p fun x => outOfLock st (if st = .holdover then x.settings.holdover else 0) x).ports :=
    (announce_ports _ p st).trans abandonMessage_ports
  rw [hports, modPort_at]
  rfl

end

/-! ### The work of a class of frame -/

section
variable {s : State} {p : Fin 12} {index : Option Nat}

/-- A LOCKED port after a check error is counted and captured (R3, R4). -/
def Port.erred (index : Option Nat) (counter : Long) (x : Port) : Port :=
  { x with missRun := 0, counters := { x.counters with checkErrors := oneMore x.counters.checkErrors }
           capture := offered x .check index counter }

/-- A check error that has been counted is concealed, or makes a fast drop (R4, R9). -/
def State.concealOrDrop (p : Fin 12) (s : State) : State :=
  if s.ports[p].settings.dropEnable = true ∧ s.ports[p].settings.dropCount ≤ (widened s.ports[p]).count then
    (s.modPort p fun x => { x with counters := { x.counters with fastDrops := oneMore x.counters.fastDrops } }).leaveLocked p .lost
  else (s.modPort p fun x => { x with window := if x.settings.dropEnable then some (widened x) else none }).writeBuffer p
    s.ports[p].conceal

theorem takeCheckError_eq : s.takeCheckError p index = (s.modPort p (Port.erred index s.blockCounter)).concealOrDrop p := by
  have herred : (((s.count p fun c => { c with checkErrors := bump c.checkErrors }).offerError p .check index s.blockCounter).modPort p
      fun x => { x with missRun := 0 }) = s.modPort p (Port.erred index s.blockCounter) := by
    rw [State.count, State.offerError, modPort_modPort, modPort_modPort]
    refine modPort_congr ?_
    rw [capturing_eq]
    rfl
  exact congrArg (State.concealOrDrop p) herred

theorem concealOrDrop_drops (h : s.ports[p].settings.dropEnable = true ∧ s.ports[p].settings.dropCount ≤ (widened s.ports[p]).count) :
    s.concealOrDrop p = (s.modPort p fun x =>
      { x with counters := { x.counters with fastDrops := oneMore x.counters.fastDrops } }).leaveLocked p .lost := if_pos h

theorem concealOrDrop_conceals
    (h : s.ports[p].settings.dropEnable = true → (widened s.ports[p]).count < s.ports[p].settings.dropCount) :
    s.concealOrDrop p = (s.modPort p fun x =>
      { x with window := if x.settings.dropEnable then some (widened x) else none }).writeBuffer p s.ports[p].conceal :=
  if_neg fun hd => Nat.not_lt.2 hd.2 (h hd.1)

/-- A sync miss below the third lengthens the run and is captured (R3, R21). -/
theorem takeSyncMiss_stays (h : s.ports[p].missRun ≤ 1) : s.takeSyncMiss p index = s.modPort p fun x =>
    { x with missRun := x.missRun + 1, capture := offered x .sync index s.blockCounter } := by
  have hmissed : (s.offerError p .sync index s.blockCounter).modPort p (fun x => { x with missRun := x.missRun + 1 }) =
      s.modPort p fun x => { x with missRun := x.missRun + 1, capture := offered x .sync index s.blockCounter } := by
    rw [State.offerError, modPort_modPort]
    refine modPort_congr ?_
    rw [capturing_eq]
  unfold State.takeSyncMiss
  simp only [hmissed]
  refine if_neg ?_
  rw [modPort_at]
  simp only
  omega

/-- The third leaves LOCKED (R3). -/
theorem takeSyncMiss_leaves (h : s.ports[p].missRun = 2) : s.takeSyncMiss p index = (s.modPort p fun x =>
    { x with missRun := 3, capture := offered x .sync index s.blockCounter }).leaveLocked p
      (if s.ports[p].settings.holdover = 0 then .lost else .holdover) := by
  have hmissed : (s.offerError p .sync index s.blockCounter).modPort p (fun x => { x with missRun := x.missRun + 1 }) =
      s.modPort p fun x => { x with missRun := 3, capture := offered x .sync index s.blockCounter } := by
    rw [State.offerError, modPort_modPort]
    refine modPort_congr ?_
    rw [capturing_eq, h]
  unfold State.takeSyncMiss
  simp only [hmissed]
  rw [modPort_at]
  exact if_pos (Nat.le_refl 3)

end

/-! ### The descriptor attempt -/

section
variable {s : State} {p : Fin 12} {cls : FrameClass} {byte : Byte} {e : Nat}

theorem portAttempt_self {x : Port} {a : Option (List (Option Byte))} (h : x.attempt = a) : { x with attempt := a } = x := by
  subst h
  rfl

/-- No attempt is under way, and index 0 does not begin one (R14). -/
theorem takeHeaderByte_none (cls : FrameClass) (byte : Byte) (h : (if e = 0 then some [] else s.ports[p].attempt) = none) :
    s.takeHeaderByte p cls byte e = s := by
  simp only [State.takeHeaderByte, h]

/-- An attempt is under way, or index 0 begins one (R14). -/
theorem takeHeaderByte_some (cls : FrameClass) (byte : Byte) {bytes : List (Option Byte)}
    (h : (if e = 0 then some [] else s.ports[p].attempt) = some bytes) : s.takeHeaderByte p cls byte e =
      if 11 < e then s
      else if cls = .misplaced then (s.modPort p fun x => { x with attempt := none }).completeDescriptor p bytes e true
      else if e = 11 then
        (s.modPort p fun x => { x with attempt := none }).completeDescriptor p (bytes ++ [byteOf cls byte]) 11 false
      else s.modPort p fun x => { x with attempt := some (bytes ++ [byteOf cls byte]) } := by
  simp only [State.takeHeaderByte, h]

/-- An arrival that does not complete the attempt adds its byte (R14). -/
theorem takeHeaderByte_noted (hc : cls ≠ .misplaced) (h : e ≠ 11 ∨ s.ports[p].attempt = none) : s.takeHeaderByte p cls byte e =
    s.modPort p fun x => { x with attempt := notedByte e (byteOf cls byte) x } := by
  have hnoted {a : Option (List (Option Byte))} (ha : notedByte e (byteOf cls byte) s.ports[p] = a) :
      s.modPort p (fun x => { x with attempt := a }) = s.modPort p fun x => { x with attempt := notedByte e (byteOf cls byte) x } :=
    modPort_congr (by rw [ha])
  by_cases h0 : e = 0
  · subst h0
    rw [takeHeaderByte_some cls byte (if_pos rfl)]
    exact (if_neg hc).trans (hnoted rfl)
  · have hunder : (if e = 0 then some [] else s.ports[p].attempt) = s.ports[p].attempt := if_neg h0
    cases ha : s.ports[p].attempt with
    | none =>
      have hsame : notedByte e (byteOf cls byte) s.ports[p] = none := by
        rw [notedByte, if_neg h0, ha]
        exact ite_self _
      rw [takeHeaderByte_none cls byte (hunder.trans ha), ← hnoted hsame]
      exact (modPort_self (portAttempt_self ha)).symm
    | some bytes =>
      rw [takeHeaderByte_some cls byte (hunder.trans ha)]
      by_cases hlate : 11 < e
      · have hsame : notedByte e (byteOf cls byte) s.ports[p] = some bytes := by
          rw [notedByte, if_neg h0, if_neg (by omega), ha]
        rw [← hnoted hsame]
        exact (if_pos hlate).trans (modPort_self (portAttempt_self ha)).symm
      · have he : e ≠ 11 := h.resolve_right (by rw [ha]; exact Option.some_ne_none _)
        have hlonger : notedByte e (byteOf cls byte) s.ports[p] = some (bytes ++ [byteOf cls byte]) := by
          rw [notedByte, if_neg h0, if_pos (by omega), ha]
          rfl
        rw [← hnoted hlonger]
        exact (if_neg hlate).trans ((if_neg hc).trans (if_neg he))

/-- A MISPLACED frame leaves an assembler with no attempt under way (R14). -/
theorem takeHeaderByte_passed (h : 12 ≤ e ∨ (1 ≤ e ∧ s.ports[p].attempt = none)) : s.takeHeaderByte p cls byte e = s := by
  have hunder : (if e = 0 then some [] else s.ports[p].attempt) = s.ports[p].attempt := if_neg (by omega)
  cases ha : s.ports[p].attempt with
  | none => exact takeHeaderByte_none cls byte (hunder.trans ha)
  | some bytes =>
    rw [takeHeaderByte_some cls byte (hunder.trans ha)]
    exact if_pos (h.resolve_right fun h => by rw [h.2] at ha; cases ha)

end

/-! ### A frame's work at a LOCKED port -/

section
variable {s t : State} {p : Fin 12} {f : LinkFrame 16} {cls : FrameClass} {e : Nat} {y : Port}

/-- A port before the work of its frame's class: the stop run and the expected index have moved (R1, R6). -/
def Port.ran (cls : FrameClass) (next : Nat) (x : Port) : Port :=
  { x with stopRun := nextStopRun x.stopRun cls, expected := some next }

/-- The descriptor attempt takes its byte where the frame leaves the port LOCKED (R14). -/
theorem takeDescriptor_locked (hl : y.state = .locked) (he : y.expected = some e) (byte : Byte) : t.takeDescriptor p y cls byte =
    if t.ports[p].state = .locked then t.takeHeaderByte p cls byte e else t := by
  simp only [State.takeDescriptor, hl, he]

/-- A frame at a LOCKED port does the work of its class, and then the descriptor attempt takes its byte (R3, R6, R14). -/
theorem frameWork_locked (hl : s.ports[p].state = .locked) (he : s.ports[p].expected = some e) {next : Nat}
    (hnext : nextExpected (some e) cls (headerIndex f.header) = some next) {index : Option Nat}
    (hindex : errorIndex cls (some e) (headerIndex f.header) (Config.freeIndex s.freeCount) = index)
    (ht : (s.modPort p (Port.ran cls next)).takeLocked p cls f.slots index = t) :
    s.frameWork p f cls = if t.ports[p].state = .locked then t.takeHeaderByte p cls (headerByte f.header) e else t := by
  have hdraw : s.drawIndex (some e) cls = s := if_neg fun h => by cases h.2
  have hlink : s.takeLinkFrame p cls f.slots (headerIndex f.header) index = t := by
    unfold State.takeLinkFrame
    simp only [hl, he, hnext, modPort_modPort]
    exact ht
  rw [State.frameWork, he, hdraw, State.arrivalIndex, hindex, hlink, takeDescriptor_locked hl he]

/-- A frame that leaves the port LOCKED and completes no attempt. -/
theorem frameWork_lands (hl : s.ports[p].state = .locked) (he : s.ports[p].expected = some e) (hc : cls ≠ .misplaced)
    (ha : e ≠ 11 ∨ s.ports[p].attempt = none) {next : Nat}
    (hnext : nextExpected (some e) cls (headerIndex f.header) = some next) {index : Option Nat}
    (hindex : errorIndex cls (some e) (headerIndex f.header) (Config.freeIndex s.freeCount) = index)
    (ht : Lands p y s ((s.modPort p (Port.ran cls next)).takeLocked p cls f.slots index)) (hstate : y.state = .locked)
    (hattempt : y.attempt = s.ports[p].attempt) :
    Lands p { y with attempt := notedByte e (byteOf cls (headerByte f.header)) s.ports[p] } s (s.frameWork p f cls) := by
  rw [frameWork_locked hl he hnext hindex rfl, if_pos (by rw [ht.port, hstate]),
    takeHeaderByte_noted hc (by rw [ht.port, hattempt]; exact ha)]
  have hnoted : notedByte e (byteOf cls (headerByte f.header)) y = notedByte e (byteOf cls (headerByte f.header)) s.ports[p] := by
    rw [notedByte, notedByte, hattempt]
  exact hnoted ▸ ht.modPort _

end

/-! ### The classes that write the buffer -/

section
variable {s : State} {p : Fin 12} {next : Nat} {index : Option Nat}

theorem takeLocked_good (slots : Slots) : Lands p (buffered slots
      { s.ports[p] with missRun := 0, stopRun := 0, expected := some next, conceal := slots }) s
    ((s.modPort p (Port.ran .good next)).takeLocked p .good slots index) := by
  have hport : (s.modPort p (Port.ran .good next)).modPort p (fun x => { x with conceal := slots, missRun := 0 }) = s.modPort p fun _ =>
      { s.ports[p] with missRun := 0, stopRun := 0, expected := some next, conceal := slots } := by
    rw [modPort_modPort]
    exact modPort_congr rfl
  have hwork : (s.modPort p (Port.ran .good next)).takeLocked p .good slots index = (s.modPort p fun _ =>
      { s.ports[p] with missRun := 0, stopRun := 0, expected := some next, conceal := slots }).writeBuffer p slots :=
    congrArg (State.writeBuffer · p slots) hport
  rw [hwork]
  exact lands_writeBuffer (by rfl) _

theorem takeLocked_checkError (slots : Slots) (h : s.ports[p].settings.dropEnable = true →
      (widened s.ports[p]).count < s.ports[p].settings.dropCount) :
    Lands p (buffered s.ports[p].conceal { s.ports[p] with
        missRun := 0, stopRun := 0, expected := some next
        window := if s.ports[p].settings.dropEnable then some (widened s.ports[p]) else none
        counters := { s.ports[p].counters with checkErrors := oneMore s.ports[p].counters.checkErrors }
        capture := offered s.ports[p] .check index s.blockCounter }) s
      ((s.modPort p (Port.ran .checkError next)).takeLocked p .checkError slots index) := by
  let erred := (s.modPort p (Port.ran .checkError next)).modPort p (Port.erred index s.blockCounter)
  have hport : erred.ports[p] = (s.ports[p].ran .checkError next).erred index s.blockCounter := by
    rw [modPort_at, modPort_at]
  have hwork : (s.modPort p (Port.ran .checkError next)).takeLocked p .checkError slots index = (s.modPort p fun _ =>
      { s.ports[p] with
        missRun := 0, stopRun := 0, expected := some next
        window := if s.ports[p].settings.dropEnable then some (widened s.ports[p]) else none
        counters := { s.ports[p].counters with checkErrors := oneMore s.ports[p].counters.checkErrors }
        capture := offered s.ports[p] .check index s.blockCounter }).writeBuffer p s.ports[p].conceal := by
    refine takeCheckError_eq.trans ((concealOrDrop_conceals (s := erred) (by rw [hport]; exact h)).trans ?_)
    rw [hport, modPort_modPort, modPort_modPort]
    refine congrArg (State.writeBuffer · p _) (modPort_congr rfl)
  rw [hwork]
  exact lands_writeBuffer (by rfl) _

theorem takeLocked_stop (slots : Slots) (h : s.ports[p].stopRun ≤ 6) : Lands p (buffered (Vector.replicate 16 0)
      { s.ports[p] with missRun := 0, stopRun := s.ports[p].stopRun + 1, expected := some next }) s
    ((s.modPort p (Port.ran .stop next)).takeLocked p .stop slots index) := by
  have hrun : min 8 (s.ports[p].stopRun + 1) = s.ports[p].stopRun + 1 := by omega
  have hport : (s.modPort p (Port.ran .stop next)).modPort p (fun x => { x with missRun := 0 }) = s.modPort p fun _ =>
      { s.ports[p] with missRun := 0, stopRun := s.ports[p].stopRun + 1, expected := some next } := by
    rw [modPort_modPort]
    refine modPort_congr ?_
    simp only [Port.ran, nextStopRun, hrun]
  have hwork : (s.modPort p (Port.ran .stop next)).takeLocked p .stop slots index = (s.modPort p fun _ =>
      { s.ports[p] with missRun := 0, stopRun := s.ports[p].stopRun + 1, expected := some next }).writeBuffer p silence := by
    unfold State.takeLocked
    simp only [hport]
    refine if_neg ?_
    rw [modPort_at]
    simp only
    omega
  rw [hwork]
  exact lands_writeBuffer (by rfl) _

end

/-! ### Sync misses and exits -/

section
variable {s : State} {p : Fin 12} {f : LinkFrame 16} {cls : FrameClass} {e index next : Nat}

theorem takeLocked_misses (hc : cls = .miss ∨ cls = .misplaced) (slots : Slots) (i : Option Nat) :
    s.takeLocked p cls slots i = s.takeSyncMiss p i := by
  rcases hc with rfl | rfl <;> rfl

theorem ran_misses (hc : cls = .miss ∨ cls = .misplaced) (x : Port) : x.ran cls next = { x with stopRun := 0, expected := some next } := by
  rcases hc with rfl | rfl <;> rfl

/-- A sync miss below the third, but for the attempt (R3, R21). -/
theorem takeLocked_missed (hc : cls = .miss ∨ cls = .misplaced) (slots : Slots) (h : s.ports[p].missRun ≤ 1) :
    (s.modPort p (Port.ran cls next)).takeLocked p cls slots (some index) = s.modPort p (afterMiss index next s.blockCounter) := by
  have hport := modPort_at s p (Port.ran cls next)
  rw [takeLocked_misses hc, takeSyncMiss_stays (by rw [hport, ran_misses hc]; exact h), modPort_modPort]
  refine modPort_congr ?_
  rw [ran_misses hc]
  rfl

/-- The work of a frame that is a sync miss below the third (R3, R14). -/
theorem frameWork_missed (hl : s.ports[p].state = .locked) (he : s.ports[p].expected = some e) (hc : cls = .miss ∨ cls = .misplaced)
    (hnext : nextExpected (some e) cls (headerIndex f.header) = some next)
    (hindex : errorIndex cls (some e) (headerIndex f.header) (Config.freeIndex s.freeCount) = some index)
    (h : s.ports[p].missRun ≤ 1) : s.frameWork p f cls =
      (s.modPort p (afterMiss index next s.blockCounter)).takeHeaderByte p cls (headerByte f.header) e := by
  rw [frameWork_locked hl he hnext hindex (takeLocked_missed hc f.slots h), if_pos]
  rw [modPort_at]
  exact hl

/-- The third sync miss in a row (R3, R5, R21). -/
theorem frameWork_unlocks (hl : s.ports[p].state = .locked) (he : s.ports[p].expected = some e) (hc : cls = .miss ∨ cls = .misplaced)
    (hnext : nextExpected (some e) cls (headerIndex f.header) = some next)
    (hindex : errorIndex cls (some e) (headerIndex f.header) (Config.freeIndex s.freeCount) = some index)
    (h : s.ports[p].missRun = 2) :
    let t := (s.modPort p fun x =>
      { outOfLock (if x.settings.holdover = 0 then .lost else .holdover) x.settings.holdover x with
        missRun := 3, stopRun := 0, capture := offered x .sync (some index) s.blockCounter }).abandonMessage p
    s.frameWork p f cls = if s.ports[p].settings.holdover = 0 then
      { t with screens := Vector.ofFn fun n => afterLost p t.screens[n] } else t := by
  intro t
  have hport := modPort_at s p (Port.ran cls next)
  have hwork : (s.modPort p (Port.ran cls next)).takeLocked p cls f.slots (some index) = ((s.modPort p (Port.ran cls next)).modPort p
      fun x => { x with missRun := 3, capture := offered x .sync (some index) s.blockCounter }).leaveLocked p
        (if s.ports[p].settings.holdover = 0 then .lost else .holdover) := by
    rw [takeLocked_misses hc, takeSyncMiss_leaves (by rw [hport, ran_misses hc]; exact h), hport, ran_misses hc]
    rfl
  rw [frameWork_locked hl he hnext hindex hwork, if_neg]
  · by_cases hzero : s.ports[p].settings.holdover = 0
    · rw [if_pos hzero, if_pos hzero, leaveLocked_lost, modPort_modPort, modPort_modPort]
      refine congrArg (fun t : State => { t.abandonMessage p with
        screens := Vector.ofFn fun n => afterLost p (t.abandonMessage p).screens[n] }) (modPort_congr ?_)
      simp only [ran_misses hc, hzero, if_true]
      rfl
    · rw [if_neg hzero, if_neg hzero, leaveLocked_holdover, modPort_modPort, modPort_modPort]
      refine congrArg (State.abandonMessage · p) (modPort_congr ?_)
      simp only [ran_misses hc, hzero, if_false]
      rfl
  · rw [leaveLocked_state]
    split <;> decide

/-- A check error that brings the fast-drop window to its count (R9, R10, R21). -/
theorem frameWork_drops (hl : s.ports[p].state = .locked) (he : s.ports[p].expected = some e)
    (hdrop : s.ports[p].settings.dropEnable = true) (hcount : s.ports[p].settings.dropCount ≤ (widened s.ports[p]).count) :
    let t := (s.modPort p fun x =>
      { outOfLock .lost 0 x with
        missRun := 0, stopRun := 0, capture := offered x .check (some e) s.blockCounter
        counters := { x.counters with checkErrors := oneMore x.counters.checkErrors
                                      fastDrops := oneMore x.counters.fastDrops } }).abandonMessage p
    s.frameWork p f .checkError = { t with screens := Vector.ofFn fun n => afterLost p t.screens[n] } := by
  let erred := (s.modPort p (Port.ran .checkError ((e + 1) % 48))).modPort p (Port.erred (some e) s.blockCounter)
  have hport : erred.ports[p] = (s.ports[p].ran .checkError ((e + 1) % 48)).erred (some e) s.blockCounter := by
    rw [modPort_at, modPort_at]
  have hwork : (s.modPort p (Port.ran .checkError ((e + 1) % 48))).takeLocked p .checkError f.slots (some e) =
      (erred.modPort p fun x => { x with counters := { x.counters with fastDrops := oneMore x.counters.fastDrops } }).leaveLocked p
        .lost := takeCheckError_eq.trans (concealOrDrop_drops (s := erred) (by rw [hport]; exact ⟨hdrop, hcount⟩))
  rw [frameWork_locked hl he rfl rfl hwork, if_neg (by rw [leaveLocked_state]; decide), leaveLocked_lost, modPort_modPort,
    modPort_modPort, modPort_modPort]
  rfl

/-- The eighth STOP frame in a row (R6). -/
theorem frameWork_breaks (hl : s.ports[p].state = .locked) (he : s.ports[p].expected = some e) (h : s.ports[p].stopRun = 7) :
    HearsBreak p ((s.modPort p fun x =>
      { outOfLock .brk 0 x with
        missRun := 0, stopRun := 8
        counters := { x.counters with stopEntries := oneMore x.counters.stopEntries } }).abandonMessage p) (s.frameWork p f .stop) := by
  let stopped := (s.modPort p (Port.ran .stop ((e + 1) % 48))).modPort p fun x => { x with missRun := 0 }
  have hwork : (s.modPort p (Port.ran .stop ((e + 1) % 48))).takeLocked p .stop f.slots (some (headerIndex f.header)) =
      (stopped.count p PortCounters.stop).leaveLocked p .brk := by
    refine if_pos ?_
    rw [modPort_at, modPort_at]
    exact Nat.le_min.2 ⟨Nat.le_refl 8, Nat.succ_le_succ h.ge⟩
  rw [frameWork_locked hl he rfl rfl hwork, if_neg (by rw [leaveLocked_state]; decide)]
  have height : min 8 (s.ports[p].stopRun + 1) = 8 := Nat.min_eq_left (Nat.succ_le_succ h.ge)
  have hall : (stopped.count p PortCounters.stop).modPort p (outOfLock .brk 0) = s.modPort p fun x =>
      { outOfLock .brk 0 x with
        missRun := 0, stopRun := 8, counters := { x.counters with stopEntries := oneMore x.counters.stopEntries } } := by
    rw [State.count, modPort_modPort, modPort_modPort, modPort_modPort]
    refine modPort_congr ?_
    simp only [Port.ran, nextStopRun, height]
    rfl
  exact hall ▸ leaveLocked_break

end

/-! ### The statements -/

/-- What a frame that leaves the port LOCKED lands, as the statement writes it. -/
theorem exec_lands {s : State} {p : Fin 12} {f : LinkFrame 16} {t : State} {y : Port}
    (hx : exec (.programFrameArrival p f) s = .next t) (h : Lands p y s t) :
    (s.ports[p].buffer.length ≤ 31 → exec (.programFrameArrival p f) s = .next (s.modPort p fun _ => y)) ∧
    (32 ≤ s.ports[p].buffer.length → ∃ t, exec (.programFrameArrival p f) s = .next t ∧ HearsSlip p (s.modPort p fun _ => y) t) :=
  ⟨fun hroom => hx.trans (congrArg _ (h.1 hroom)), fun hfull => ⟨t, hx, h.2 hfull⟩⟩

/-- Settles O36: a GOOD, a concealed and a silent frame are written alike, and the attempt takes its byte last. -/
theorem lockedFramesFillTheBuffer : Obligations.LockedFramesFillTheBuffer := by
  intro p f e s hp x lands hl he hbyte
  have hd : x.state ≠ .down := by rw [hl]; decide
  refine ⟨fun hg hcode => ?_, fun hb ha hno => ?_, fun hst hcode hrun => ?_⟩
  · refine exec_lands (exec_frame_plain hp hd (classify_good hg (.inl he)) (.inl ⟨.inl rfl, hcode⟩)) ?_
    refine frameWork_lands (cls := .good) (next := (e + 1) % 48) hl he (by decide) hbyte ?_ rfl (takeLocked_good f.slots) hl rfl
    rw [hg.2.2]
    rfl
  · exact exec_lands (exec_frame_plain hp hd (classify_badCheck hb) (.inr ⟨.inl rfl, ha⟩))
      (frameWork_lands hl he (by decide) hbyte rfl rfl (takeLocked_checkError f.slots hno) hl rfl)
  · exact exec_lands (exec_frame_plain hp hd (classify_stop hst) (.inl ⟨.inr rfl, hcode⟩))
      (frameWork_lands hl he (by decide) hbyte rfl rfl (takeLocked_stop f.slots hrun) hl rfl)

/-- Settles O37: a sync miss, a fast drop and the eighth STOP frame, each in its class of frame. -/
theorem missesFastDropsAndStopsLeaveLocked : Obligations.MissesFastDropsAndStopsLeaveLocked := by
  intro p f e s hp x lost misses hl he ha
  have hd : x.state ≠ .down := by rw [hl]; decide
  have hport (index next : Nat) : (s.modPort p (afterMiss index next s.blockCounter)).ports[p].attempt = x.attempt := by
    rw [modPort_at]
    rfl
  refine ⟨fun hm => ⟨fun hrun hstill => ?_, fun hrun => ?_⟩, fun k hg hne => ⟨fun hrun hstill => ?_, fun hrun => ?_⟩,
    fun hb hdrop hcount => ?_, fun hst hcode hrun => ?_⟩
  · rw [exec_frame_plain hp hd (classify_miss (e := 0) (.inl hm)) (.inr ⟨.inr (.inl rfl), ha⟩),
      frameWork_missed hl he (.inl rfl) rfl rfl hrun, takeHeaderByte_noted (by decide) (by rw [hport]; exact hstill), modPort_modPort]
    rfl
  · rw [exec_frame_plain hp hd (classify_miss (e := 0) (.inl hm)) (.inr ⟨.inr (.inl rfl), ha⟩),
      frameWork_unlocks hl he (.inl rfl) rfl rfl hrun]
  · rw [exec_frame_plain hp hd (classify_misplaced hg he hne) (.inr ⟨.inr (.inr rfl), ha⟩),
      frameWork_missed hl he (.inr rfl) rfl rfl hrun, takeHeaderByte_passed (by rw [hport]; exact hstill), hg.2.2]
    exact congrArg _ (modPort_congr (portAttempt_self rfl).symm)
  · rw [exec_frame_plain hp hd (classify_misplaced hg he hne) (.inr ⟨.inr (.inr rfl), ha⟩),
      frameWork_unlocks hl he (.inr rfl) rfl rfl hrun, hg.2.2]
  · rw [exec_frame_plain hp hd (classify_badCheck hb) (.inr ⟨.inl rfl, ha⟩), frameWork_drops hl he hdrop hcount]
  · exact ⟨_, exec_frame_plain hp hd (classify_stop hst) (.inl ⟨.inr rfl, hcode⟩), frameWork_breaks hl he hrun⟩

end Sys2Proof.Machine
end

-- Proofs/BoundaryLinks: what a master block boundary makes of the ports and the arbiters
section
/-! The links' share of a boundary acts on each port and each arbiter alone (`Port.throughBoundary`, `Arbiter.throughBoundary`). Of the
boundary's other work it is only said that it stays within the screens and the contact lines (`ScreensOnly`), and of what is due
before it that it frees channels (`ChannelsOnly`). -/

namespace Sys2Proof.Machine

/-! ### Work within the screens and the lines -/

/-- `t` is `s` but for its screens and its contact lines. -/
def ScreensOnly (s t : State) : Prop := t = { s with screens := t.screens, lines := t.lines }

theorem ScreensOnly.refl (s : State) : ScreensOnly s s := rfl

theorem ScreensOnly.trans (s t u : State) (h : ScreensOnly s t) (k : ScreensOnly t u) : ScreensOnly s u :=
  Eq.trans k (congrArg (fun w : State => { w with screens := u.screens, lines := u.lines }) h)

theorem screensOnly_forScreens {f : Fin 8 → State → State} (h : ∀ n s, ScreensOnly s (f n s)) (s : State) :
    ScreensOnly s (forScreens f s) := forEach_keeps .refl .trans f h _ s

theorem screensOnly_modScreen (s : State) (n : Fin 8) (f : Screen → Screen) : ScreensOnly s (s.modScreen n f) := rfl

theorem screensOnly_endCrossfade (n : Fin 8) (s : State) : ScreensOnly s (s.endCrossfade n) := by
  unfold State.endCrossfade
  split <;> exact rfl

theorem screensOnly_choose (n : Fin 8) (s : State) : ScreensOnly s (s.choose n) := by
  unfold State.choose
  simp only
  split <;> exact rfl

theorem screensOnly_tickLink (n : Fin 8) (s : State) : ScreensOnly s (s.tickLink n) := by
  unfold State.tickLink State.unlessTaken
  split <;> exact rfl

theorem screensOnly_settleScreen (n : Fin 8) (s : State) : ScreensOnly s (s.settleScreen n) := by
  unfold State.settleScreen
  simp only
  split <;> exact rfl

theorem screensOnly_endQuiet (counter : Long) (n : Fin 8) (s : State) : ScreensOnly s (s.endQuiet counter n) := by
  unfold State.endQuiet
  split <;> exact rfl

theorem screensOnly_tickScreens (s : State) : ScreensOnly s s.tickScreens :=
  .trans _ _ _ (screensOnly_forScreens screensOnly_settleScreen s)
    (.trans _ _ _ (screensOnly_forScreens (f := State.settleDecoder) (fun _ _ => rfl) _)
      (screensOnly_forScreens (f := State.tickEngine) (fun _ _ => rfl) _))

theorem screensOnly_tickTimers (s : State) : ScreensOnly s s.tickTimers := by
  have hquiet := screensOnly_forScreens (screensOnly_endQuiet s.blockCounter) s
  unfold State.tickTimers State.tickLines
  generalize forScreens (State.endQuiet s.blockCounter) s = t at hquiet ⊢
  exact .trans _ _ _ hquiet rfl

theorem screensOnly_tickMonitor (n : Fin 8) (s : State) : ScreensOnly s (s.tickMonitor n) := by
  rw [State.tickMonitor, alarmEvent_eq]
  exact rfl

/-! ### Work on each port and on each arbiter -/

section
variable {s : State} {f g : Fin 12 → State → State} {P : State → Prop}

/-- Two operations that are one while `P` holds, and keep it, are one when repeated. -/
theorem forEach_congr (h : ∀ p t, P t → f p t = g p t) (hkeep : ∀ p t, P t → P (g p t)) (items : List (Fin 12)) (hs : P s) :
    forEach items f s = forEach items g s := by
  induction items generalizing s with
  | nil => rfl
  | cons a items ih =>
    refine (ih (s := f a s) (by rw [h a s hs]; exact hkeep a s hs)).trans ?_
    rw [h a s hs]
    rfl

theorem forEach_modArb (k : Fin 12 → Arbiter → Arbiter) (items : List (Fin 12)) (hd : items.Nodup) (s : State) :
    forEach items (fun p t => t.modArb p (k p)) s =
      { s with arbiters := Vector.ofFn fun p => if p ∈ items then k p s.arbiters[p] else s.arbiters[p] } := by
  induction items generalizing s with
  | nil => simp [forEach]
  | cons a items ih =>
    obtain ⟨ha, hd⟩ := List.nodup_cons.1 hd
    refine (ih hd (s.modArb a (k a))).trans ?_
    have hone (p : Fin 12) : (if p ∈ items then k p (s.modArb a (k a)).arbiters[p] else (s.modArb a (k a)).arbiters[p]) =
        if p ∈ a :: items then k p s.arbiters[p] else s.arbiters[p] := by
      by_cases hp : p = a
      · subst hp
        simp [ha]
      · simp [hp, State.modArb_other s a p (k a) hp]
    simp only [hone]
    rfl

/-- An operation that changes each arbiter while `P` holds, repeated over all. -/
theorem forPorts_modArb {k : Fin 12 → Arbiter → Arbiter} (h : ∀ p t, P t → f p t = t.modArb p (k p))
    (hkeep : ∀ p t, P t → P (t.modArb p (k p))) (hs : P s) :
    forPorts f s = { s with arbiters := Vector.ofFn fun p => k p s.arbiters[p] } := by
  refine (forEach_congr h hkeep _ hs).trans ((forEach_modArb k _ (List.nodup_finRange 12) s).trans ?_)
  simp only [List.mem_finRange, if_true]

/-- `t` is `s` but for a change `k` of port `p` and what its screens make of it. -/
def PortMoves (k : Port → Port) (p : Fin 12) (s t : State) : Prop := t = { s.modPort p k with screens := t.screens }

theorem PortMoves.port {k : Port → Port} {p : Fin 12} {s t : State} (h : PortMoves k p s t) : t.ports[p] = k s.ports[p] := by
  rw [h]
  exact modPort_at s p k

theorem PortMoves.other {k : Port → Port} {p q : Fin 12} {s t : State} (h : PortMoves k p s t) (hq : q ≠ p) :
    t.ports[q] = s.ports[q] := by
  rw [h]
  exact State.modPort_other s p q k hq

theorem PortMoves.modPort {k : Port → Port} {p : Fin 12} {s t : State} (h : PortMoves k p s t) (g : Port → Port) :
    PortMoves (fun x => g (k x)) p s (t.modPort p g) := by
  have hmoved := congrArg (State.modPort · p g) h
  refine hmoved.trans ?_
  have hboth := modPort_modPort s p k g
  exact congrArg (fun w : State => { w with screens := t.screens }) hboth

/-- An operation that so moves each port while `P` holds, repeated over some. -/
theorem forEach_portMoves {k : Port → Port} (h : ∀ p t, P t → PortMoves k p t (f p t)) (hkeep : ∀ p t, P t → P (f p t))
    (items : List (Fin 12)) (hd : items.Nodup) (hs : P s) : let t := forEach items f s
    t = { s with ports := t.ports, screens := t.screens } ∧
      ∀ p : Fin 12, t.ports[p] = if p ∈ items then k s.ports[p] else s.ports[p] := by
  induction items generalizing s with
  | nil => exact ⟨rfl, fun _ => rfl⟩
  | cons a items ih =>
    obtain ⟨ha, hd⟩ := List.nodup_cons.1 hd
    have hfirst := h a s hs
    obtain ⟨hrest, hports⟩ := ih hd (hkeep a s hs)
    refine ⟨hrest.trans ?_, fun p => (hports p).trans ?_⟩
    · exact congrArg (fun w : State => { w with ports := (forEach items f (f a s)).ports
                                                screens := (forEach items f (f a s)).screens }) hfirst
    · by_cases hp : p = a
      · subst hp
        rw [if_neg ha, if_pos List.mem_cons_self, hfirst.port]
      · rw [hfirst.other hp]
        simp only [List.mem_cons, hp, false_or]

end

/-! ### A port through a boundary -/

/-- The holdover count loses one block, and ends in LOST (R5). -/
def Port.passHoldover (x : Port) : Port :=
  if x.state = .holdover then
    if x.holdoverLeft ≤ 1 then { x with state := .lost, holdoverLeft := 0 } else { x with holdoverLeft := x.holdoverLeft - 1 }
  else x

/-- A service tick counts at a message under assembly, and the second times it out (R18). -/
def Port.passMessage (counter : Long) (x : Port) : Port :=
  match x.assembly with
  | some a =>
    if serviceTick counter then
      if 1 ≤ a.ticks then
        { x with assembly := none, lastTimedOut := some a.source
                 counters := { x.counters with discarded := oneMore x.counters.discarded }
                 capture := offered x .service none counter }
      else { x with assembly := some { a with ticks := a.ticks + 1 } }
    else x
  | none => x

/-- A port's share of a boundary (R5, R9, R18). -/
def Port.throughBoundary (counter : Long) (x : Port) : Port := x.passHoldover.tickWindow.passMessage counter

section
variable {s : State} {p : Fin 12} {counter : Long}

theorem tickHoldover_moves : PortMoves Port.passHoldover p s (s.tickHoldover p) := by
  unfold State.tickHoldover
  by_cases hst : s.ports[p].state = .holdover
  · by_cases hleft : s.ports[p].holdoverLeft ≤ 1
    · have hport : s.modPort p (fun x => { x with state := .lost, holdoverLeft := 0 }) = s.modPort p Port.passHoldover :=
        modPort_congr (by rw [Port.passHoldover, if_pos hst, if_pos hleft])
      rw [if_pos hst, if_pos hleft, State.loseHoldover, hport, announce_lost]
      exact rfl
    · have hport : s.modPort p (fun x => { x with holdoverLeft := x.holdoverLeft - 1 }) = s.modPort p Port.passHoldover :=
        modPort_congr (by rw [Port.passHoldover, if_pos hst, if_neg hleft])
      rw [if_pos hst, if_neg hleft, hport]
      exact rfl
  · rw [if_neg hst]
    have hport : s.modPort p Port.passHoldover = s := modPort_self (if_neg hst)
    exact congrArg (fun w : State => { w with screens := s.screens }) hport.symm

theorem tickAssembly_eq : s.tickAssembly counter p = s.modPort p (Port.passMessage counter) := by
  unfold State.tickAssembly
  cases ha : s.ports[p].assembly with
  | none => exact (modPort_self (by simp only [Port.passMessage, ha])).symm
  | some a =>
    by_cases htick : serviceTick counter = true
    · by_cases hticks : 1 ≤ a.ticks
      · simp only [htick, hticks, if_true]
        rw [State.timeoutMessage, discardMessage_eq, modPort_modPort]
        refine modPort_congr ?_
        simp only [Port.passMessage, ha, htick, hticks, if_true]
        rfl
      · simp only [htick, hticks, if_true, if_false]
        refine modPort_congr ?_
        simp only [Port.passMessage, ha, htick, hticks, if_true, if_false]
    · refine (if_neg htick).trans (modPort_self ?_).symm
      simp only [Port.passMessage, ha]
      exact if_neg htick

theorem tickPort_moves (ht : s.taken = []) : PortMoves (Port.throughBoundary counter) p s (s.tickPort counter p) := by
  have hold : PortMoves Port.passHoldover p s (s.tickHoldover p) := tickHoldover_moves
  have htaken : (s.tickHoldover p).taken = [] := by rw [hold]; exact ht
  unfold State.tickPort
  rw [unlessTaken_none ht, unlessTaken_none htaken, unlessTaken_none (s := (s.tickHoldover p).modPort p Port.tickWindow) htaken,
    tickAssembly_eq]
  exact (hold.modPort Port.tickWindow).modPort (Port.passMessage counter)

end

/-! ### An arbiter through a boundary -/

/-- The oldest response expires where it has seen its fourth service tick (R168). -/
def Arbiter.expireOnce (counter : Long) (a : Arbiter) : Arbiter :=
  match a.queue with
  | r :: rest =>
    if serviceTick counter && r.expired counter then { a with queue := rest, responsesExpired := bump a.responsesExpired } else a
  | [] => a

/-- The interval loses one block, and at its end every remaining count becomes its G and T the next interval (R169). -/
def Arbiter.passInterval (routes : Fin 8 → Option Route) (p : Fin 12) (a : Arbiter) : Arbiter :=
  if a.remainder ≤ 1 then
    { a with respLeft := a.respCount
             screenLeft := Vector.ofFn fun n => match routes n with
               | some r => if r.port = p then r.count else 0
               | none => 0
             interval := a.nextInterval, remainder := a.nextInterval }
  else { a with remainder := a.remainder - 1 }

/-- An arbiter's share of a boundary; the queue holds at most four (R168, R169). -/
def Arbiter.throughBoundary (counter : Long) (routes : Fin 8 → Option Route) (p : Fin 12) (a : Arbiter) : Arbiter :=
  ((Arbiter.expireOnce counter)^[4] a).passInterval routes p

section
variable {s : State} {p : Fin 12} {counter : Long}

/-- With no reset pending an expiry touches its arbiter alone (R168, R188). -/
theorem expireOne_eq (hr : s.resetPending = none) : s.expireOne counter p = s.modArb p (Arbiter.expireOnce counter) := by
  cases hq : s.arbiters[p].queue with
  | nil =>
    have hsame : s.modArb p (Arbiter.expireOnce counter) = s.modArb p id :=
      modArb_congr (by simp only [Arbiter.expireOnce, hq, id])
    have hself : s.modArb p id = s := by simp [State.modArb]
    rw [hsame, hself]
    simp only [State.expireOne, hq]
  | cons r rest =>
    by_cases he : (serviceTick counter && r.expired counter) = true
    · rw [expireOne_expires hq he, hr]
      have hnone : (if r.forReset then (none : Option ResetPending).map fun x => { x with due := true } else none) = none := ite_self _
      have hpopped : s.modArb p (fun a => { a with queue := rest, responsesExpired := oneMore a.responsesExpired }) =
          s.modArb p (Arbiter.expireOnce counter) :=
        modArb_congr (by simp only [Arbiter.expireOnce, hq, he, if_true]; rfl)
      rw [hnone, ← hr, hpopped]
      rfl
    · rw [expireOne_stays fun r' rest' h => by
        obtain ⟨rfl, -⟩ := List.cons.inj (hq.symm.trans h)
        exact Bool.not_eq_true _ ▸ he]
      have hsame : s.modArb p (Arbiter.expireOnce counter) = s.modArb p id :=
        modArb_congr (by simp only [Arbiter.expireOnce, hq, id]; exact if_neg he)
      rw [hsame]
      simp [State.modArb]

theorem expireResponses_eq (hr : s.resetPending = none) :
    s.expireResponses counter p = s.modArb p (Arbiter.expireOnce counter)^[4] := by
  have hnext (f : Arbiter → Arbiter) : (s.modArb p f).expireOne counter p = s.modArb p fun a => (f a).expireOnce counter :=
    (expireOne_eq (by exact hr)).trans (modArb_modArb s p f _)
  have hfour : State.expireResponses counter p s =
      (((s.expireOne counter p).expireOne counter p).expireOne counter p).expireOne counter p := rfl
  rw [hfour, expireOne_eq hr, hnext, hnext, hnext]
  rfl

theorem tickArbiter_eq : s.tickArbiter p = s.modArb p (Arbiter.passInterval (fun n => s.screens[n].ctx.route) p) := by
  unfold State.tickArbiter
  by_cases h : s.arbiters[p].remainder ≤ 1
  · rw [if_pos h]
    exact modArb_congr (by rw [Arbiter.passInterval, if_pos h] <;> rfl)
  · rw [if_neg h]
    exact modArb_congr (by rw [Arbiter.passInterval, if_neg h])

/-- Where the oldest response does not expire, none does. -/
theorem queue_unexpired {expired : Response → Bool} {a : Arbiter} (hnone : a.queue.takeWhile expired = [])
    (hcount : a.responsesExpired ≤ 65535) : a = { a with
      queue := a.queue.dropWhile expired
      responsesExpired := min 65535 (a.responsesExpired + (a.queue.takeWhile expired).length) } := by
  have hdrop : a.queue.dropWhile expired = a.queue := by
    have hsplit := List.takeWhile_append_dropWhile (p := expired) (l := a.queue)
    rwa [hnone] at hsplit
  rw [hdrop, hnone, List.length_nil, Nat.add_zero, Nat.min_eq_right hcount]

/-- The responses that expire at a service tick are those at the head of the queue with four ticks since their placing (R168). -/
theorem expireOnce_iterate {expired : Response → Bool} (he : ∀ r, (serviceTick counter && r.expired counter) = expired r) (k : Nat)
    (a : Arbiter) (hk : a.queue.length ≤ k) (hcount : a.responsesExpired ≤ 65535) :
    (Arbiter.expireOnce counter)^[k] a = { a with
      queue := a.queue.dropWhile expired
      responsesExpired := min 65535 (a.responsesExpired + (a.queue.takeWhile expired).length) } := by
  have hstays {b : Arbiter} (hb : b.expireOnce counter = b) (j : Nat) : (Arbiter.expireOnce counter)^[j] b = b :=
    Function.iterate_fixed hb j
  induction k generalizing a with
  | zero =>
    have hq : a.queue = [] := List.length_eq_zero_iff.1 (Nat.le_zero.1 hk)
    exact queue_unexpired (a := a) (by rw [hq]; rfl) hcount
  | succ k ih =>
    cases hq : a.queue with
    | nil =>
      rw [hstays (by simp only [Arbiter.expireOnce, hq]), ← hq]
      exact queue_unexpired (by rw [hq]; rfl) hcount
    | cons r rest =>
      by_cases hr : expired r = true
      · have honce : a.expireOnce counter = { a with queue := rest, responsesExpired := bump a.responsesExpired } := by
          simp only [Arbiter.expireOnce, hq, he, hr, if_true]
        rw [Function.iterate_succ_apply, honce, ih _ (by simpa [hq] using hk) (Nat.min_le_left _ _)]
        simp only [List.dropWhile_cons, List.takeWhile_cons, hr, if_true, List.length_cons, bump]
        congr 1
        omega
      · rw [hstays (by simp only [Arbiter.expireOnce, hq, he]; exact if_neg hr), ← hq]
        exact queue_unexpired (by rw [hq, List.takeWhile_cons]; exact if_neg hr) hcount

end

/-! ### The boundary -/

/-- `t` is `s` but for its ports, arbiters, screens and contact lines. -/
def LinksOnly (s t : State) : Prop := t = { s with ports := t.ports, arbiters := t.arbiters, screens := t.screens, lines := t.lines }

theorem LinksOnly.trans {s t u : State} (h : LinksOnly s t) (k : LinksOnly t u) : LinksOnly s u :=
  Eq.trans k (congrArg (fun w : State => { w with ports := u.ports, arbiters := u.arbiters, screens := u.screens, lines := u.lines }) h)

theorem ScreensOnly.links {s t : State} (h : ScreensOnly s t) : LinksOnly s t ∧ t.ports = s.ports ∧ t.arbiters = s.arbiters := by
  have hports : t.ports = s.ports := by rw [h]
  have harbiters : t.arbiters = s.arbiters := by rw [h]
  refine ⟨?_, hports, harbiters⟩
  unfold LinksOnly
  rw [hports, harbiters]
  exact h

/-- `t` is `s` but for its screens, its lines and the channels that have become free. -/
def ChannelsOnly (s t : State) : Prop :=
  t = { s with arbiters := t.arbiters, screens := t.screens, lines := t.lines } ∧
  ∀ p : Fin 12, t.arbiters[p] = { s.arbiters[p] with channel := t.arbiters[p].channel }

theorem ChannelsOnly.trans {s t u : State} (h : ChannelsOnly s t) (k : ChannelsOnly t u) : ChannelsOnly s u := by
  refine ⟨Eq.trans k.1 (congrArg (fun w : State => { w with arbiters := u.arbiters, screens := u.screens, lines := u.lines }) h.1),
    fun p => (k.2 p).trans ?_⟩
  exact congrArg (fun a : Arbiter => { a with channel := u.arbiters[p].channel }) (h.2 p)

theorem ScreensOnly.channels {s t : State} (h : ScreensOnly s t) : ChannelsOnly s t := by
  have harbiters : t.arbiters = s.arbiters := by rw [h]
  refine ⟨?_, fun p => by rw [harbiters]⟩
  rw [harbiters]
  exact h

theorem channelsOnly_messageSent {s : State} (hr : s.resetPending = none) (p : Fin 12) : ChannelsOnly s (s.messageSent p) := by
  have hfreed : ChannelsOnly s (s.modArb p fun a => { a with channel := none }) := by
    refine ⟨rfl, fun q => ?_⟩
    simp only [Fin.getElem_fin, State.modArb_get]
    split
    · next hq => subst hq; rfl
    · rfl
  unfold State.messageSent
  split
  · next m _ =>
    split
    · unfold State.freeChannel
      cases m.owner with
      | resp =>
        simp only
        split
        · have hsame : (s.modArb p fun a => { a with channel := none }).resetDue = s.modArb p fun a => { a with channel := none } := by
            rw [State.resetDue, State.modArb_resetPending, hr, Option.map_none, ← hr]
            rfl
          rw [hsame]
          exact hfreed
        · exact hfreed
      | screen n => exact hfreed.trans (ScreensOnly.channels (screensOnly_modScreen _ n _))
    · exact ScreensOnly.channels (.refl s)
  · exact ScreensOnly.channels (.refl s)

theorem channelsOnly_settleDue {s : State} (hr : s.resetPending = none) : ChannelsOnly s s.settleDue := by
  have hsent : s.resetPending = none → ChannelsOnly s (forPorts State.messageSent s) :=
    forEach_keeps (R := fun s t => s.resetPending = none → ChannelsOnly s t) (fun s _ => ScreensOnly.channels (.refl s))
      (fun s t u h k hr => (h hr).trans (k (by rw [(h hr).1]; exact hr))) _ (fun p s hr => channelsOnly_messageSent hr p) _ s
  rw [settleDue_eq hr]
  exact (hsent hr).trans ((screensOnly_forScreens screensOnly_endCrossfade _).channels.trans
    (screensOnly_forScreens screensOnly_choose _).channels)

section
variable {s : State}

/-- A screen hears of a loss in its context, and keeps its route there (R50). -/
theorem hearPorts_route (ports : Vector Port 12) (x : Screen) : (x.hearPorts ports).ctx.route = x.ctx.route :=
  (congrArg Context.route (sourceOnly_hearPorts ports x)).trans rfl

/-- The ports' share of a boundary (R5, R9, R18). -/
theorem tickPorts_moves (ht : s.taken = []) (counter : Long) : let t := forPorts (State.tickPort counter) s
    t = { s with ports := t.ports, screens := t.screens } ∧
      ∀ p : Fin 12, t.ports[p] = s.ports[p].throughBoundary counter := by
  have hmoves (p : Fin 12) (t : State) (h : t.taken = []) := tickPort_moves (s := t) (p := p) (counter := counter) h
  obtain ⟨hrest, hports⟩ := forEach_portMoves (P := fun t => t.taken = []) hmoves
    (fun p t h => by rw [hmoves p t h]; exact h) _ (List.nodup_finRange 12) ht
  exact ⟨hrest, fun p => (hports p).trans (if_pos (List.mem_finRange p))⟩

theorem tickArbiters_eq (ht : s.taken = []) : s.tickArbiters = { s with
    arbiters := Vector.ofFn fun p => s.arbiters[p].passInterval (fun n => s.screens[n].ctx.route) p } :=
  forPorts_modArb (P := fun t => t.taken = [] ∧ t.screens = s.screens)
    (k := fun p => Arbiter.passInterval (fun n => s.screens[n].ctx.route) p)
    (fun p t h => by rw [unlessTaken_none h.1, tickArbiter_eq, h.2]) (fun p t h => h) ⟨ht, rfl⟩

/-- The arbiters' share of a boundary (R168, R169). -/
theorem arbiters_boundary (hr : s.resetPending = none) (ht : s.taken = []) (counter : Long) :
    (forPorts (State.expireResponses counter) s).tickArbiters = { s with
      arbiters := Vector.ofFn fun p => s.arbiters[p].throughBoundary counter (fun n => s.screens[n].ctx.route) p } := by
  have hexpired := forPorts_modArb (f := State.expireResponses counter) (P := fun t => t.resetPending = none)
    (k := fun _ => (Arbiter.expireOnce counter)^[4]) (fun p t h => expireResponses_eq h) (fun p t h => h) hr
  rw [hexpired, tickArbiters_eq (by exact ht)]
  simp only [Fin.getElem_fin, Vector.getElem_ofFn]
  rfl

/-- The links' share of a boundary, on each port and on each arbiter (R5, R9, R18, R168, R169). -/
theorem tickLinks_links (hr : s.resetPending = none) (ht : s.taken = []) : let t := s.tickLinks
    LinksOnly s t ∧ (∀ p : Fin 12, t.ports[p] = s.ports[p].throughBoundary s.blockCounter) ∧
      ∀ p : Fin 12, t.arbiters[p] = s.arbiters[p].throughBoundary s.blockCounter (fun n => s.screens[n].ctx.route) p := by
  obtain ⟨hv, hports⟩ := tickPorts_moves ht s.blockCounter
  obtain ⟨-, -, -, hscreens⟩ := forPorts_tickPort s.blockCounter ht
  unfold State.tickLinks
  generalize forPorts (State.tickPort s.blockCounter) s = v at hv hports hscreens ⊢
  have hroutes : (fun n : Fin 8 => v.screens[n].ctx.route) = fun n => s.screens[n].ctx.route :=
    funext fun n => by rw [hscreens n, hearPorts_route]
  have hkept : v.resetPending = none ∧ v.taken = [] ∧ v.arbiters = s.arbiters := by rw [hv]; exact ⟨hr, ht, rfl⟩
  obtain ⟨hvr, hvt, harbiters⟩ := hkept
  have hload := arbiters_boundary hvr hvt s.blockCounter
  have hlinks := (screensOnly_forScreens screensOnly_tickLink
    (forPorts (State.expireResponses s.blockCounter) v).tickArbiters).links
  generalize forScreens State.tickLink (forPorts (State.expireResponses s.blockCounter) v).tickArbiters = t at hlinks ⊢
  generalize (forPorts (State.expireResponses s.blockCounter) v).tickArbiters = u at hload hlinks
  obtain ⟨hlinked, hlinkPorts, hlinkArbiters⟩ := hlinks
  have hportsOnly : LinksOnly s v := by rw [hv]; exact rfl
  have harbitersOnly : LinksOnly v u := by rw [hload]; exact rfl
  refine ⟨(hportsOnly.trans harbitersOnly).trans hlinked, fun p => ?_, fun p => ?_⟩
  · rw [hlinkPorts, hload]
    exact hports p
  · rw [hlinkArbiters, hload, ← hroutes, ← harbiters]
    simp only [Fin.getElem_fin, Vector.getElem_ofFn]

/-- From the opening of the block, a boundary's work keeps within ports, arbiters, screens and lines. -/
theorem openedBlock_links (hr : s.resetPending = none) (ht : s.taken = []) :
    let t := forScreens State.tickMonitor s.tickLinks.tickScreens.tickTimers
    LinksOnly s t ∧ (∀ p : Fin 12, t.ports[p] = s.ports[p].throughBoundary s.blockCounter) ∧
      ∀ p : Fin 12, t.arbiters[p] = s.arbiters[p].throughBoundary s.blockCounter (fun n => s.screens[n].ctx.route) p := by
  obtain ⟨hlinks, hports, harbiters⟩ := tickLinks_links hr ht
  generalize s.tickLinks = u at hlinks hports harbiters ⊢
  have hunits : ScreensOnly u (forScreens State.tickMonitor u.tickScreens.tickTimers) :=
    .trans _ _ _ (screensOnly_tickScreens u) (.trans _ _ _ (screensOnly_tickTimers _) (screensOnly_forScreens screensOnly_tickMonitor _))
  obtain ⟨hlinked, hsamePorts, hsameArbiters⟩ := hunits.links
  exact ⟨hlinks.trans hlinked, fun p => by rw [hsamePorts, hports p], fun p => by rw [hsameArbiters, harbiters p]⟩

/-- A master block boundary on the ports and the arbiters; a channel may become free of a message that is due to end. -/
theorem boundary_links (hr : s.resetPending = none) (ht : s.taken = []) : let t := s.boundary
    t = { s with blockCounter := s.blockCounter + 1, frameIndex := 0, ports := t.ports, arbiters := t.arbiters
                 screens := t.screens, lines := t.lines } ∧
    (∀ p : Fin 12, t.ports[p] = s.ports[p].throughBoundary (s.blockCounter + 1)) ∧
    ∀ p : Fin 12, ∃ channel, t.arbiters[p] = ({ s.arbiters[p] with channel := channel } : Arbiter).throughBoundary
      (s.blockCounter + 1) (fun n => s.screens[n].ctx.route) p := by
  have hdue := channelsOnly_settleDue hr
  have hscreens := (dueTaken_settleDue hr).screens
  rw [boundary_eq, State.unitsDue]
  generalize s.settleDue = d at hdue hscreens ⊢
  obtain ⟨hd, hchannels⟩ := hdue
  have hopened : d.openBlock = { s with blockCounter := s.blockCounter + 1, frameIndex := 0, arbiters := d.arbiters
                                        screens := d.screens, lines := d.lines } := by
    rw [State.openBlock, hd]
    rfl
  generalize d.openBlock = o at hopened ⊢
  have hkept : o.resetPending = none ∧ o.taken = [] ∧ o.blockCounter = s.blockCounter + 1 ∧ o.ports = s.ports ∧
      o.arbiters = d.arbiters ∧ o.screens = d.screens := by
    rw [hopened]
    exact ⟨hr, ht, rfl, rfl, rfl, rfl⟩
  obtain ⟨hor, hot, hcounter, hsamePorts, hsameArbiters, hsameScreens⟩ := hkept
  have hblock := openedBlock_links hor hot
  generalize forScreens State.tickMonitor o.tickLinks.tickScreens.tickTimers = t at hblock ⊢
  obtain ⟨hlinks, hports, harbiters⟩ := hblock
  rw [hcounter] at hports harbiters
  have hroutes : (fun n : Fin 8 => o.screens[n].ctx.route) = fun n => s.screens[n].ctx.route :=
    funext fun n => by rw [hsameScreens, (hscreens n).ctx]
  refine ⟨?_, fun p => ?_, fun p => ⟨d.arbiters[p].channel, ?_⟩⟩
  · have hemptied : ({ t with taken := [] } : State) = { s with
        blockCounter := s.blockCounter + 1, frameIndex := 0, taken := [], ports := t.ports, arbiters := t.arbiters
        screens := t.screens, lines := t.lines } := by
      rw [hlinks, hopened]
    rw [← ht] at hemptied ⊢
    exact hemptied
  · exact (hports p).trans (by rw [hsamePorts])
  · refine (harbiters p).trans ?_
    rw [hroutes, hsameArbiters, ← hchannels p]

/-- The cue engine's and the lines' share of a boundary ends pulses (R157). -/
theorem tickTimers_line (t : State) (l : Fin 16) : t.tickTimers.lines[l] = t.lines[l].endPulse t.blockCounter := by
  have hquiet := linesAndFlags_forScreens (linesAndFlags_endQuiet t.blockCounter) t
  unfold State.tickTimers State.tickLines
  generalize forScreens (State.endQuiet t.blockCounter) t = q at hquiet ⊢
  simp [hquiet.lines]

theorem followSummary_cue {n : Fin 8} {summary : Option Nat} {l : Line} (h : l.mode = .cue) : l.followSummary n summary = l :=
  if_neg fun hl => by rw [h] at hl; exact absurd hl.1 (by decide)

/-- The meter and alarm units' share leaves a CUE-mode line (R158). -/
theorem forScreens_tickMonitor_cueLine (l : Fin 16) (s : State) :
    s.lines[l].mode = .cue → (forScreens State.tickMonitor s).lines[l] = s.lines[l] :=
  forEach_keeps (R := fun s t => s.lines[l].mode = .cue → t.lines[l] = s.lines[l]) (fun _ _ => rfl)
    (fun s t u h k hm => (k (by rw [h hm]; exact hm)).trans (h hm)) _
    (fun n s hm => (alarmEvent_line s n _ l).trans (followSummary_cue hm)) _ s

/-- A boundary ends a CUE-mode line's pulse where that is due, and does nothing else to it (R157, R158). -/
theorem boundary_cueLine (hr : s.resetPending = none) (ht : s.taken = []) (l : Fin 16) (hmode : s.lines[l].mode = .cue) :
    s.boundary.lines[l] = s.lines[l].endPulse (s.blockCounter + 1) := by
  have hlines := linesAndFlags_settleDue hr
  have hdue := (dueTaken_settleDue hr).parts
  rw [boundary_eq, State.unitsDue]
  generalize s.settleDue = d at hdue hlines ⊢
  have hopened : LinesAndFlags d d.openBlock := linesAndFlags_of_same rfl rfl
  have hkept := (((linesAndFlags_tickScreens _).after (linesAndFlags_tickLinks _)).after hopened).after hlines
  obtain ⟨-, hcounter, htaken, -⟩ := tickLinks_screens (s := d.openBlock) (hdue.taken.trans ht)
  have hblock : d.openBlock.blockCounter = s.blockCounter + 1 := congrArg (· + 1) hdue.counter
  have hscreens := (tickScreens_screens htaken).1.counter.trans (hcounter.trans hblock)
  generalize d.openBlock.tickLinks.tickScreens = t at hkept hscreens ⊢
  have hended : t.tickTimers.lines[l] = s.lines[l].endPulse (s.blockCounter + 1) := by
    rw [tickTimers_line, hkept.lines, hscreens]
  have hcue : t.tickTimers.lines[l].mode = .cue := by
    rw [hended, Line.endPulse]
    split <;> exact hmode
  exact (forScreens_tickMonitor_cueLine l t.tickTimers hcue).trans hended

end

end Sys2Proof.Machine
end

-- Proofs/BoundaryTimers: counters and timers at a boundary (O48)
section
/-! The timers that `Port.throughBoundary` and `Arbiter.throughBoundary` move, what the boundary makes of a screen's engine, and the
statement (R5, R9, R35, R95, R97, R108, R109, R148, R157, R168, R169). -/

namespace Sys2Proof.Machine

/-! ### Ports and arbiters -/

section
variable {x : Port} {counter : Long}

theorem passMessage_state (x : Port) (counter : Long) : (x.passMessage counter).state = x.state ∧
    (x.passMessage counter).holdoverLeft = x.holdoverLeft := by
  unfold Port.passMessage
  split
  · split
    · split <;> exact ⟨rfl, rfl⟩
    · exact ⟨rfl, rfl⟩
  · exact ⟨rfl, rfl⟩

theorem passMessage_none (h : x.assembly = none) : x.passMessage counter = x := by
  simp only [Port.passMessage, h]

theorem tickWindow_holdoverLeft (x : Port) : x.tickWindow.holdoverLeft = x.holdoverLeft := by
  unfold Port.tickWindow
  split
  · split <;> rfl
  · rfl

theorem passHoldover_assembly (x : Port) : x.passHoldover.assembly = x.assembly := by
  unfold Port.passHoldover
  split
  · split <;> rfl
  · rfl

theorem tickWindow_assembly (x : Port) : x.tickWindow.assembly = x.assembly := by
  unfold Port.tickWindow
  split
  · split <;> rfl
  · rfl

/-- A HOLDOVER port with one block left enters LOST (R5). -/
theorem throughBoundary_lost (hst : x.state = .holdover) (hleft : x.holdoverLeft ≤ 1) :
    (x.throughBoundary counter).state = .lost ∧ (x.throughBoundary counter).holdoverLeft = 0 := by
  have hold : x.passHoldover = { x with state := .lost, holdoverLeft := 0 } := by
    rw [Port.passHoldover, if_pos hst, if_pos hleft]
  obtain ⟨hstate, hcount⟩ := passMessage_state x.passHoldover.tickWindow counter
  rw [Port.throughBoundary, hstate, hcount, tickWindow_state, tickWindow_holdoverLeft, hold]
  exact ⟨rfl, rfl⟩

/-- A holdover that does not end loses one block. -/
theorem passHoldover_stays (h : x.state ≠ .holdover ∨ 2 ≤ x.holdoverLeft) :
    x.passHoldover = { x with holdoverLeft := if x.state = .holdover then x.holdoverLeft - 1 else x.holdoverLeft } := by
  unfold Port.passHoldover
  split
  · next hst => exact if_neg (by have := h.resolve_left (not_not_intro hst); omega)
  · rfl

/-- A port that stays in its state, with no message under assembly, moves its holdover count and its window alone (R5, R9). -/
theorem throughBoundary_counts (hst : x.state ≠ .holdover ∨ 2 ≤ x.holdoverLeft) (ha : x.assembly = none) :
    x.throughBoundary counter =
      ({ x with holdoverLeft := if x.state = .holdover then x.holdoverLeft - 1 else x.holdoverLeft } : Port).tickWindow := by
  have hassembly : x.passHoldover.tickWindow.assembly = none := by rw [tickWindow_assembly, passHoldover_assembly, ha]
  rw [Port.throughBoundary, passMessage_none hassembly, passHoldover_stays hst]

end

section
variable {a : Arbiter} {counter : Long} {routes : Fin 8 → Option Route} {p : Fin 12}

/-- Expiries touch the queue and its count alone (R168). -/
theorem expireOnce_rest (counter : Long) (k : Nat) (a : Arbiter) : (Arbiter.expireOnce counter)^[k] a = { a with
    queue := ((Arbiter.expireOnce counter)^[k] a).queue
    responsesExpired := ((Arbiter.expireOnce counter)^[k] a).responsesExpired } := by
  induction k generalizing a with
  | zero => rfl
  | succ k ih =>
    have honce : a.expireOnce counter = { a with
        queue := (a.expireOnce counter).queue, responsesExpired := (a.expireOnce counter).responsesExpired } := by
      unfold Arbiter.expireOnce
      split
      · split <;> rfl
      · rfl
    rw [Function.iterate_succ_apply]
    exact (ih _).trans (congrArg (fun b : Arbiter => { b with
      queue := ((Arbiter.expireOnce counter)^[k] (a.expireOnce counter)).queue
      responsesExpired := ((Arbiter.expireOnce counter)^[k] (a.expireOnce counter)).responsesExpired }) honce)

theorem passInterval_counts (h : 2 ≤ a.remainder) : a.passInterval routes p = { a with remainder := a.remainder - 1 } :=
  if_neg (by omega)

theorem passInterval_reloads (h : a.remainder ≤ 1) : a.passInterval routes p = { a with
    respLeft := a.respCount, screenLeft := (a.passInterval routes p).screenLeft, interval := a.nextInterval
    remainder := a.nextInterval } := by
  rw [Arbiter.passInterval, if_pos h]

/-- A reload gives a screen with its route at the port its own count (R169). -/
theorem passInterval_route (h : a.remainder ≤ 1) {n : Fin 8} {r : Route} (hr : routes n = some r) (hp : r.port = p) :
    (a.passInterval routes p).screenLeft[n] = r.count := by
  rw [Arbiter.passInterval, if_pos h]
  simp [hr, hp]

theorem passInterval_queue (a : Arbiter) : (a.passInterval routes p).queue = a.queue ∧
    (a.passInterval routes p).responsesExpired = a.responsesExpired := by
  unfold Arbiter.passInterval
  split <;> exact ⟨rfl, rfl⟩

/-- An interval that does not end loses one block, and the counts of the turn stay (R169). -/
theorem throughBoundary_counted (h : 2 ≤ a.remainder) : let b := a.throughBoundary counter routes p
    b.remainder = a.remainder - 1 ∧ b.interval = a.interval ∧ b.respLeft = a.respLeft ∧ b.screenLeft = a.screenLeft := by
  have hrest := expireOnce_rest counter 4 a
  unfold Arbiter.throughBoundary
  generalize (Arbiter.expireOnce counter)^[4] a = b at hrest ⊢
  have hleft : b.remainder = a.remainder := by rw [hrest]
  rw [passInterval_counts (hleft ▸ h), hrest]
  exact ⟨rfl, rfl, rfl, rfl⟩

/-- At the end of its interval an arbiter takes its T and its counts anew (R169). -/
theorem throughBoundary_reloaded (h : a.remainder ≤ 1) : let b := a.throughBoundary counter routes p
    b.remainder = a.nextInterval ∧ b.interval = a.nextInterval ∧ b.respLeft = a.respCount ∧
      ∀ (n : Fin 8) (r : Route), routes n = some r → r.port = p → b.screenLeft[n] = r.count := by
  have hrest := expireOnce_rest counter 4 a
  unfold Arbiter.throughBoundary
  generalize (Arbiter.expireOnce counter)^[4] a = b at hrest ⊢
  have hleft : b.remainder = a.remainder := by rw [hrest]
  have hcounts := passInterval_reloads (routes := routes) (p := p) (hleft ▸ h)
  refine ⟨?_, ?_, ?_, fun n r hr hp => passInterval_route (hleft ▸ h) hr hp⟩ <;> rw [hcounts, hrest]

/-- The queue and its count through a boundary (R168). -/
theorem throughBoundary_queue {expired : Response → Bool} (he : ∀ r, (serviceTick counter && r.expired counter) = expired r)
    (hq : a.queue.length ≤ 4) (hcount : a.responsesExpired ≤ 65535) :
    (a.throughBoundary counter routes p).queue = a.queue.dropWhile expired ∧
      (a.throughBoundary counter routes p).responsesExpired =
        min 65535 (a.responsesExpired + (a.queue.takeWhile expired).length) := by
  obtain ⟨hqueue, hexpired⟩ := passInterval_queue (routes := routes) (p := p) ((Arbiter.expireOnce counter)^[4] a)
  rw [Arbiter.throughBoundary, hqueue, hexpired, expireOnce_iterate he 4 a hq hcount]
  exact ⟨rfl, rfl⟩

end

/-! ### The engine -/

section
variable {e : Engine}

/-- The end of a crossfade that has run its 64th frame (R99). -/
def Engine.settled (e : Engine) : Engine := if e.crossfadeOver then e.endCrossfade else e

theorem settled_none (h : e.crossfade = none) : e.settled = e := by
  simp [Engine.settled, Engine.crossfadeOver, h]

theorem settled_running {y : Crossfade} (h : e.crossfade = some y) (hy : y.frame ≤ 63) : e.settled = e := by
  have hrunning : ¬64 ≤ y.frame := by omega
  simp [Engine.settled, Engine.crossfadeOver, h, hrunning]

theorem settled_over {y : Crossfade} (h : e.crossfade = some y) (hy : ¬y.frame ≤ 63) : e.settled = e.endCrossfade := by
  have hover : 64 ≤ y.frame := by omega
  simp [Engine.settled, Engine.crossfadeOver, h, hover]

theorem fadeStep_none (h : e.fade = none) : e.fadeStep = e := by
  simp only [Engine.fadeStep, h]

/-- A fade moves one step towards its target and ends there (R95). -/
theorem fadeStep_some {f : Fade} (h : e.fade = some f) :
    let level := if e.fader < f.target then min f.target (e.fader + f.step) else max f.target (e.fader - f.step)
    e.fadeStep = { e with fader := level, fade := if level = f.target then none else some f } := by
  simp only [Engine.fadeStep, h]
  by_cases hup : e.fader < f.target
  · rw [if_pos hup, if_pos hup]
    by_cases hend : f.target ≤ e.fader + f.step
    · rw [if_pos hend, Nat.min_eq_left hend, if_pos rfl]
    · rw [if_neg hend, Nat.min_eq_right (by omega), if_neg (by omega), ← h]
  · rw [if_neg hup, if_neg hup]
    by_cases hend : e.fader ≤ f.target + f.step
    · rw [if_pos hend, Nat.max_eq_left (by omega), if_pos rfl]
    · rw [if_neg hend, Nat.max_eq_right (by omega), if_neg (by omega), ← h]

theorem fadeStep_switch (e : Engine) : e.fadeStep.pendingSwitch = e.pendingSwitch ∧ e.fadeStep.crossfade = e.crossfade ∧
    e.fadeStep.bankA = e.bankA ∧ e.fadeStep.bankB = e.bankB := by
  cases h : e.fade with
  | none => rw [fadeStep_none h]; exact ⟨rfl, rfl, rfl, rfl⟩
  | some f => rw [fadeStep_some h]; exact ⟨rfl, rfl, rfl, rfl⟩

/-- No switch starts while a crossfade runs, or with none pending (R97). -/
theorem startSwitch_stays {st : ScreenState} (h : e.crossfade.isSome = true ∨ e.pendingSwitch = none) : e.startSwitch st = e := by
  unfold Engine.startSwitch
  rcases h with h | h
  · obtain ⟨y, hy⟩ := Option.isSome_iff_exists.1 h
    cases e.pendingSwitch <;> simp only [hy]
  · simp only [h]

theorem startSwitch_dark {k : Bank} (hc : e.crossfade = none) (hk : e.pendingSwitch = some k) :
    e.startSwitch .dark = { e with active := k, pendingSwitch := none } := by
  simp only [Engine.startSwitch, hc, hk]

/-- A pending switch starts its crossfade, with the incoming bank at rest (R85, R97). -/
theorem startSwitch_starts {k : Bank} {st : ScreenState} (hst : st ≠ .dark) (hc : e.crossfade = none) (hk : e.pendingSwitch = some k) :
    e.startSwitch st = { e with pendingSwitch := none, crossfade := some { incoming := k, frame := 0 }
                                bankA := if k = .a then restedBank e.bankA else e.bankA
                                bankB := if k = .b then restedBank e.bankB else e.bankB } := by
  cases st with
  | dark => exact absurd rfl hst
  | standby | running =>
    simp only [Engine.startSwitch, hc, hk]
    cases k <;> rfl

end

/-! ### The screens after what is due -/

section
variable {s : State}

/-- Two states with the same engines. -/
def SameEngines (s t : State) : Prop := ∀ n : Fin 8, t.screens[n].eng = s.screens[n].eng

theorem sameEngines_modScreen {n : Fin 8} {f : Screen → Screen} (h : (f s.screens[n]).eng = s.screens[n].eng) :
    SameEngines s (s.modScreen n f) := fun m => by
  simp only [Fin.getElem_fin, State.modScreen_get]
  split
  · next hm => subst hm; exact h
  · rfl

theorem sameEngines_messageSent (p : Fin 12) (s : State) : SameEngines s (s.messageSent p) := by
  unfold State.messageSent State.freeChannel
  split
  · next m _ =>
    split
    · cases m.owner with
      | resp =>
        simp only
        split <;> exact fun _ => rfl
      | screen n => exact sameEngines_modScreen (s := s.modArb p fun a => { a with channel := none }) rfl
    · exact fun _ => rfl
  · exact fun _ => rfl

theorem sameEngines_choose (n : Fin 8) (s : State) : SameEngines s (s.choose n) := by
  unfold State.choose
  simp only
  split
  · next src _ _ _ _ => cases src <;> exact sameEngines_modScreen rfl
  · exact fun _ => rfl

theorem onEach_endCrossfade : OnEach State.endCrossfade fun _ x => { x with eng := x.eng.settled } := by
  refine onEach_modScreen (fun n t _ => ?_) fun _ _ _ _ => rfl
  unfold State.endCrossfade
  split
  · next h => exact modScreen_congr (by rw [Engine.settled, if_pos h])
  · next h => exact (modScreen_self (by rw [Engine.settled, if_neg h])).symm

/-- Of the engines, what is due before a boundary ends the crossfades that have run (R99). -/
theorem settleDue_eng (hr : s.resetPending = none) (ht : s.taken = []) (n : Fin 8) :
    s.settleDue.screens[n].eng = s.screens[n].eng.settled := by
  have trans (s t u : State) (h : SameEngines s t) (k : SameEngines t u) : SameEngines s u := fun m => (k m).trans (h m)
  have hsent : SameEngines s (forPorts State.messageSent s) :=
    forEach_keeps (fun _ _ => rfl) trans _ sameEngines_messageSent _ s
  have hdue : DueTaken s (forPorts State.messageSent s) := forEach_keeps .refl .trans _ dueTaken_messageSent _ s
  have hended := (onEach_forScreens onEach_endCrossfade _ (hdue.parts.taken.trans ht)).2 n
  have hchosen : SameEngines _ (forScreens State.choose (forScreens State.endCrossfade (forPorts State.messageSent s))) :=
    forEach_keeps (fun _ _ => rfl) trans _ sameEngines_choose _ _
  rw [settleDue_eq hr, hchosen n, hended, ← hsent n]

/-- The engine moves by its fade step and a switch's start alone (R95, R97). -/
theorem throughBoundary_eng (t : State) (x : Screen) :
    (x.throughBoundary t).eng = x.eng.fadeStep.startSwitch (x.throughBoundary t).ctx.state := rfl

/-- What a boundary makes of a screen's engine (R95, R97, R99). -/
theorem boundary_eng (hr : s.resetPending = none) (ht : s.taken = []) (n : Fin 8) :
    s.boundary.screens[n].eng = s.screens[n].eng.settled.fadeStep.startSwitch s.screens[n].ctx.state := by
  obtain ⟨w, m, switched, h⟩ := boundary_parts hr ht n
  obtain ⟨hstate, -⟩ := h.record
  have heng := settleDue_eng hr ht n
  have hdue := dueTaken_settleDue hr
  rw [← hstate]
  unfold State.boundary
  generalize s.settleDue = d at heng hdue ⊢
  obtain ⟨-, htaken, hscreens⟩ := openedBlock_screens (u := d.openBlock) (hdue.parts.taken.trans ht)
  generalize forScreens State.tickMonitor d.openBlock.tickLinks.tickScreens.tickTimers = t at htaken hscreens ⊢
  rw [emptyTaken_self htaken, hscreens n, throughBoundary_eng, hearPorts_rest, ← heng]
  rfl

/-- What a boundary makes of a screen's meters, quiet interval and cues (R108, R109, R148). -/
theorem boundary_meters (hr : s.resetPending = none) (ht : s.taken = []) (n : Fin 8) : let x := s.screens[n]
    let y := s.boundary.screens[n]
    y.mon.speed = x.ctx.meterSpeed ∧ (∀ c : Fin 16, y.mon.meters[c] = x.mon.meters[c].boundary x.ctx.meterSpeed) ∧
      y.quiet = (if x.quiet = some (s.blockCounter + 1) then none else x.quiet) ∧ y.cues = x.cues := by
  obtain ⟨w, m, switched, h⟩ := boundary_parts hr ht n
  obtain ⟨-, hscreens⟩ := boundary_screens hr ht
  obtain ⟨v, hv, hy⟩ := hscreens n
  have hcounter : s.boundary.blockCounter = s.blockCounter + 1 := congrArg State.blockCounter (boundary_links hr ht).1
  generalize s.boundary = t at h hy hcounter ⊢
  have hctx : t.screens[n].ctx.meterSpeed = s.screens[n].ctx.meterSpeed := by
    rw [h.ctx, resolve_rest, h.only]
  have hspeed : (t.handing t.screens[n]).speed = s.screens[n].ctx.meterSpeed := hctx
  have hmeters : w.mon.meters = s.screens[n].mon.meters := by rw [h.due.mon]
  refine ⟨?_, fun c => ?_, ?_, ?_⟩
  · rw [h.mon, boundary_rest]
    exact hspeed
  · rw [h.mon, boundary_rest]
    simp only [Monitor.takeHanded, Fin.getElem_fin, Vector.getElem_ofFn, hmeters]
    exact congrArg (fun speed => Meter.boundary speed _) hspeed
  · rw [hy, hearPorts_rest, ← hv.quiet, ← hcounter]
    rfl
  · rw [hy, hearPorts_rest, ← hv.cues]
    rfl

end

/-! ### The statement -/

/-- A timed-out exchange enters HUNT, and presents no channel (R35, R39). -/
theorem tickTimer_present_timeout {x : ScreenPort} (hl : x.link = .exchange) (hleft : x.timer ≤ 1) : x.tickTimer.present =
    { huntLink x with timeouts := oneMore x.timeouts, presented := Vector.replicate 16 .absent } := by
  have htimeout : x.tickTimer = { huntLink x with timeouts := oneMore x.timeouts } := by
    rw [ScreenPort.tickTimer, if_pos hl, if_pos hleft]
    rfl
  have hhunt : ({ huntLink x with timeouts := oneMore x.timeouts } : ScreenPort).link ≠ .up := by
    rw [huntLink]
    exact fun h => nomatch h
  have hpresented : Vector.ofFn ({ huntLink x with timeouts := oneMore x.timeouts } : ScreenPort).presentedState =
      Vector.replicate 16 .absent := by
    ext k hk
    simp only [Vector.getElem_ofFn, Vector.getElem_replicate]
    exact if_pos hhunt
  rw [htimeout, ScreenPort.present, hpresented]

/-- Settles O48: the boundary acts on each port and each arbiter alone (`boundary_links`), on each screen's engine by its fade step and
a switch's start (`boundary_eng`), and on the CUE-mode lines by their pulses' ends. -/
theorem boundaryMovesTheTimers : Obligations.BoundaryMovesTheTimers := by
  intro s hp hr ht
  obtain ⟨hrest, hports, harbiters⟩ := boundary_links hr ht
  refine ⟨s.boundary, live_on hp _, hrest, fun p => ⟨fun hst hleft => ?_, fun hst ha => ?_, fun hleft => ?_, fun hleft => ?_,
    fun hq hcount => ?_⟩, fun n => ?_, fun l hmode => ?_⟩
  · rw [hports p]
    exact throughBoundary_lost hst hleft
  · rw [hports p, throughBoundary_counts hst ha, Port.tickWindow]
    cases s.ports[p].window with
    | none => rfl
    | some w => by_cases hw : w.left ≤ 1 <;> simp only [hw, if_true, if_false]
  · obtain ⟨channel, ha⟩ := harbiters p
    rw [ha]
    exact throughBoundary_counted hleft
  · obtain ⟨channel, ha⟩ := harbiters p
    rw [ha]
    exact throughBoundary_reloaded hleft
  · obtain ⟨channel, ha⟩ := harbiters p
    rw [ha]
    exact throughBoundary_queue (fun r => by
      rw [Bool.eq_iff_iff, expires_iff, decide_eq_true_iff]) hq hcount
  · obtain ⟨w, m, switched, h⟩ := boundary_parts hr ht n
    obtain ⟨hspeed, hmeters, hquiet, hcues⟩ := boundary_meters hr ht n
    have heng := boundary_eng hr ht n
    generalize s.boundary = t at h hspeed hmeters hquiet hcues heng ⊢
    intro x e faded
    have he : e = x.eng.settled := by
      show (match x.eng.crossfade with | none => x.eng | some y => _) = _
      cases hc : x.eng.crossfade with
      | none => exact (settled_none hc).symm
      | some y =>
        by_cases hy : y.frame ≤ 63
        · rw [settled_running hc hy]
          exact if_pos hy
        · rw [settled_over hc hy, endCrossfade_eq hc]
          exact if_neg hy
    have hfaded : faded = e.fadeStep := by
      show (match e.fade with | none => e | some f => _) = _
      cases hf : e.fade with
      | none => exact (fadeStep_none hf).symm
      | some f => exact (fadeStep_some hf).symm
    rw [← he, ← hfaded] at heng
    obtain ⟨hpending, hcrossfade, hbankA, hbankB⟩ := fadeStep_switch e
    rw [← hfaded] at hpending hcrossfade hbankA hbankB
    refine ⟨fun hl hleft => ?_, fun hl hleft => ?_, fun hstays => ?_, fun k hc hk hst => ?_, fun k hc hk hst => ?_, hspeed, hmeters,
      hquiet, hcues⟩
    · rw [h.link, ScreenPort.tickTimer, if_pos hl, if_neg (Nat.not_le.2 hleft)]
      exact ⟨hl, rfl⟩
    · rw [h.link]
      exact tickTimer_present_timeout hl hleft
    · rw [heng]
      exact startSwitch_stays (by rwa [hpending, hcrossfade])
    · rw [heng, hst]
      exact startSwitch_dark (hcrossfade.trans hc) (hpending.trans hk)
    · rw [heng, startSwitch_starts hst (hcrossfade.trans hc) (hpending.trans hk), hbankA, hbankB]
  · rw [boundary_cueLine hr ht l hmode]
    rfl

end Sys2Proof.Machine
end

-- Proofs/ServiceAssembler: the service assembler's steps (O41)
section
/-! A GOOD or STOP frame does what its twin with IDLE does, and then takes its service word (`exec_word`); an abandoned message is
discarded after the work that the frame does with none (`exec_abandons`); and a boundary's service tick counts at a message or times
it out (R17, R18, R19, R21). -/

namespace Sys2Proof.Machine

/-! ### The service word, by its code -/

section
variable {s : State} {p : Fin 12} {cls : FrameClass} {word : Word} {index : Option Nat} (hc : cls = .good ∨ cls = .stop)
include hc

/-- START begins a message with its word (R17). -/
theorem takeServiceWord_start_none (ha : s.ports[p].assembly = none) : s.takeServiceWord p cls .start word index =
    (s.modPort p fun y => { y with assembly := some { words := [word], source := word.extractLsb' 0 8, ticks := 0 } }, none) := by
  rcases hc with rfl | rfl <;> simp only [State.takeServiceWord, ha] <;> rfl

/-- START abandons an earlier message (R17). -/
theorem takeServiceWord_start_some {a : Assembly} (ha : s.ports[p].assembly = some a) : s.takeServiceWord p cls .start word index =
    (s.modPort p fun y => { discarded index s.blockCounter y with
      assembly := some { words := [word], source := word.extractLsb' 0 8, ticks := 0 } }, none) := by
  have hbegun : (s.discardMessage p index s.blockCounter).modPort p (fun y => { y with assembly := some (beginMessage word) }) =
      s.modPort p fun y => { discarded index s.blockCounter y with assembly := some (beginMessage word) } := by
    rw [discardMessage_eq, modPort_modPort]
    rfl
  rcases hc with rfl | rfl <;> simp only [State.takeServiceWord, ha, hbegun] <;> rfl

/-- A stray DATA or END word is ignored (R17). -/
theorem takeServiceWord_stray {code : ServiceCode} (hcode : code = .data ∨ code = .fin) (ha : s.ports[p].assembly = none) :
    s.takeServiceWord p cls code word index = (s, none) := by
  rcases hc with rfl | rfl <;> rcases hcode with rfl | rfl <;> simp only [State.takeServiceWord, ha]

section
variable {a : Assembly} (ha : s.ports[p].assembly = some a)
include ha

/-- A DATA word is appended while the message has at most 62 (R17). -/
theorem takeServiceWord_data (hroom : a.words.length ≤ 62) : s.takeServiceWord p cls .data word index =
    (s.modPort p fun y => { y with assembly := some { a with words := a.words ++ [word] } }, none) := by
  have hshort : ¬63 ≤ a.words.length := by omega
  rcases hc with rfl | rfl <;> simp only [State.takeServiceWord, ha, ge_iff_le, hshort, if_false]

/-- A DATA word past the sixty-third makes the message too long (R17). -/
theorem takeServiceWord_data_tooLong (hlong : 63 ≤ a.words.length) : s.takeServiceWord p cls .data word index =
    (s.modPort p (discarded index s.blockCounter), none) := by
  rcases hc with rfl | rfl <;>
    simp only [State.takeServiceWord, ha, ge_iff_le, hlong, if_true, discardMessage_dropped]

/-- A message with fewer than four words or with a bad check is discarded (R19). -/
theorem takeServiceWord_fin_bad (hbad : a.words.length ≤ 2 ∨ messageCheck a.words ≠ word) :
    s.takeServiceWord p cls .fin word index = (s.modPort p (discarded index s.blockCounter), none) := by
  have hverdict : judgeMessage s.node (a.words ++ [word]) = .tooShort ∨ judgeMessage s.node (a.words ++ [word]) = .badCheck := by
    unfold judgeMessage
    rw [List.length_append, List.length_singleton, List.dropLast_concat, List.getLastD_concat]
    by_cases hshort : a.words.length + 1 < 4
    · exact Or.inl (if_pos hshort)
    · exact Or.inr ((if_neg hshort).trans (if_pos (hbad.resolve_left (by omega))))
  rcases hc with rfl | rfl <;> rcases hverdict with hv | hv <;> simp only [State.takeServiceWord, ha, hv, discardMessage_dropped]

section
variable {first : Word} {rest : List Word} (hwords : a.words = first :: rest) (hlong : 3 ≤ a.words.length)
  (hcheck : messageCheck a.words = word)
include hwords hlong hcheck

omit hc ha in
theorem judgeMessage_addressed (node : Byte) : judgeMessage node (a.words ++ [word]) =
    if first.extractLsb' 8 8 ≠ node then .notOurs else .ours := by
  unfold judgeMessage
  have hhead : (a.words ++ [word]).headD 0 = first := by rw [hwords]; rfl
  rw [List.length_append, List.length_singleton, List.dropLast_concat, List.getLastD_concat, if_neg (by omega),
    if_neg (not_not_intro hcheck), hhead]

/-- A message for another node is counted alone (R19). -/
theorem takeServiceWord_fin_notOurs (hnode : first.extractLsb' 8 8 ≠ s.node) : s.takeServiceWord p cls .fin word index =
    (s.modPort p fun y => { y with assembly := none, counters := { y.counters with discarded := oneMore y.counters.discarded } },
      none) := by
  have hverdict := (judgeMessage_addressed hwords hlong hcheck s.node).trans (if_pos hnode)
  have hcounted : (s.modPort p fun x => { x with assembly := none }).count p PortCounters.discard = s.modPort p fun y =>
      { y with assembly := none, counters := { y.counters with discarded := oneMore y.counters.discarded } } := by
    rw [State.count, modPort_modPort]
    rfl
  rcases hc with rfl | rfl <;> simp only [State.takeServiceWord, ha, hverdict, hcounted]

/-- A message for this node leaves the assembler whole (R19). -/
theorem takeServiceWord_fin_ours (hnode : first.extractLsb' 8 8 = s.node) : s.takeServiceWord p cls .fin word index =
    (s.modPort p fun y => { y with assembly := none }, some (a.words ++ [word])) := by
  have hverdict := (judgeMessage_addressed hwords hlong hcheck s.node).trans (if_neg (not_not_intro hnode))
  rcases hc with rfl | rfl <;> simp only [State.takeServiceWord, ha, hverdict]

end
end
end

/-! ### A frame and its twin with IDLE -/

section
variable {s : State} {p : Fin 12} {f g : LinkFrame 16}

/-- A frame whose service word is taken is GOOD or STOP, and so is its twin (R1, R17). -/
theorem classify_twin {x : Port} (hf : CarriesWord f x) (hg : IdleTwin f g) :
    ∃ cls, (cls = .good ∨ cls = .stop) ∧ classify x.expected f = cls ∧ classify x.expected g = cls := by
  obtain ⟨hsync, hindex, -, -, -, hcheck⟩ := hg
  rcases hf with ⟨e, hgood, hx⟩ | hstop
  · exact ⟨.good, .inl rfl, classify_good hgood hx, classify_good ⟨hsync.trans hgood.1, hcheck, hindex.trans hgood.2.2⟩ hx⟩
  · exact ⟨.stop, .inr rfl, classify_stop hstop, classify_stop ⟨hsync.trans hstop.1, hcheck⟩⟩

/-- A frame and its twin do the same link and descriptor work. -/
theorem frameWork_twin (hg : IdleTwin f g) (cls : FrameClass) : s.frameWork p g cls = s.frameWork p f cls := by
  obtain ⟨-, hindex, hbyte, -, hslots, -⟩ := hg
  rw [State.frameWork, State.frameWork, hindex, hbyte, hslots]

/-- A GOOD or STOP frame does what its twin does, and then takes its service word (R17; order: assumption log 5). -/
theorem exec_word (hp : s.powered = true) (hst : s.ports[p].state ≠ .down) (hf : CarriesWord f s.ports[p]) (hg : IdleTwin f g) :
    ∃ u cls, exec (.programFrameArrival p g) s = .next u ∧ (cls = .good ∨ cls = .stop) ∧
      u.ports[p].assembly = s.ports[p].assembly ∧ u.blockCounter = s.blockCounter ∧ u.node = s.node ∧ u.powered = true ∧
      ∀ code t, headerCode f.header = code →
        (u.takeServiceWord p cls code f.service (some (headerIndex f.header)) = (t, none) →
          exec (.programFrameArrival p f) s = .next t) ∧
        ∀ words, u.takeServiceWord p cls code f.service (some (headerIndex f.header)) = (t, some words) →
          exec (.programFrameArrival p f) s = .next (t.takeMessage p words) := by
  obtain ⟨cls, hcls, hclass, htwin⟩ := classify_twin hf hg
  have hindex : s.arrivalIndex s.ports[p].expected cls (headerIndex f.header) = some (headerIndex f.header) := by
    rcases hcls with rfl | rfl <;> rfl
  have hblind := blind_frameWork (p := p) f cls
  refine ⟨s.frameWork p f cls, cls, ?_, hcls, hblind.keeps s, hblind.counter s, ?_, (hblind.powered s).trans hp, fun code t hcode => ?_⟩
  · rw [← frameWork_twin hg]
    exact exec_frame_plain hp hst htwin (.inl ⟨hcls, hg.2.2.2.1⟩)
  · rw [State.node, hblind.straps s, State.node]
  · subst hcode
    exact ⟨fun hw => exec_frame hp hst hclass (words := none) (by rwa [hindex]),
      fun words hw => exec_frame hp hst hclass (words := some words) (by rwa [hindex])⟩

end

/-! ### Abandonment -/

section
variable {s : State} {p : Fin 12} {f : LinkFrame 16} {index : Option Nat}

/-- The class of a frame that abandons a message, and the index of the discard (R17, R21). -/
theorem abandons_class (h : Abandons f (Config.freeIndex s.freeCount) s.ports[p] index) :
    ∃ cls, (cls = .checkError ∨ cls = .miss ∨ cls = .misplaced) ∧ classify s.ports[p].expected f = cls ∧
      s.arrivalIndex s.ports[p].expected cls (headerIndex f.header) = index := by
  rcases h with ⟨hmiss, hindex⟩ | ⟨hbad, hindex⟩ | ⟨k, hgood, ⟨e, he, hne, hindex⟩ | ⟨hnone, hk, hindex⟩⟩
  · exact ⟨.miss, .inr (.inl rfl), classify_miss (e := 0) (.inl hmiss), hindex.symm⟩
  · exact ⟨.checkError, .inl rfl, classify_badCheck hbad, (arrivalIndex_checkError _ _).trans hindex.symm⟩
  · refine ⟨.misplaced, .inr (.inr rfl), classify_misplaced hgood he hne, ?_⟩
    rw [hindex, hgood.2.2]
    rfl
  · refine ⟨.miss, .inr (.inl rfl), classify_miss (.inr ⟨hgood, hnone, hk⟩), ?_⟩
    rw [hindex, hnone]
    rfl

/-- An abandoned message is discarded after what the frame does with none (R17; order: assumption log 5). -/
theorem exec_abandons (hp : s.powered = true) (hst : s.ports[p].state ≠ .down) (ha : s.ports[p].assembly.isSome = true)
    (h : Abandons f (Config.freeIndex s.freeCount) s.ports[p] index) :
    ∃ u, exec (.programFrameArrival p f) (s.modPort p fun x => { x with assembly := none }) = .next u ∧
      exec (.programFrameArrival p f) s = .next (u.modPort p (discarded index s.blockCounter)) := by
  obtain ⟨cls, hcls, hclass, hindex⟩ := abandons_class h
  obtain ⟨a, ha⟩ := Option.isSome_iff_exists.1 ha
  have hblind := blind_frameWork (p := p) f cls
  have hport : (s.setAssembly p none).ports[p] = { s.ports[p] with assembly := none } := setAssembly_at s none
  refine ⟨(s.frameWork p f cls).setAssembly p none, ?_, ?_⟩
  · rw [← hblind.assembly]
    refine exec_frame_plain (s := s.setAssembly p none) hp ?_ ?_ (.inr ⟨hcls, ?_⟩)
    · rw [hport]; exact hst
    · rw [hport]; exact hclass
    · rw [hport]
  · have hword := takeServiceWord_abandons (code := headerCode f.header) (word := f.service) (index := index) hcls
      ((hblind.keeps s).trans ha)
    refine (exec_frame hp hst hclass (words := none) (by rw [hindex]; exact hword)).trans ?_
    rw [State.setAssembly, modPort_modPort, hblind.counter s]
    rfl

end

/-! ### A message through a boundary -/

section
variable {x : Port} {a : Assembly} {counter : Long}

/-- Before its message, a boundary moves a port's holdover and its window, and keeps the rest that a discard reads. -/
theorem beforeMessage_kept (x : Port) : let y := x.passHoldover.tickWindow
    y.assembly = x.assembly ∧ y.counters = x.counters ∧ y.capture = x.capture ∧ y.lastTimedOut = x.lastTimedOut ∧
      y.lastGood = x.lastGood := by
  have hwindow (x : Port) : x.tickWindow = { x with window := x.tickWindow.window } := by
    unfold Port.tickWindow
    split
    · split <;> rfl
    · rfl
  have hold : x.passHoldover = { x with state := x.passHoldover.state, holdoverLeft := x.passHoldover.holdoverLeft } := by
    unfold Port.passHoldover
    split
    · split <;> rfl
    · rfl
  rw [hwindow, hold]
  exact ⟨rfl, rfl, rfl, rfl, rfl⟩

/-- A message under assembly through a boundary (R18). -/
theorem throughBoundary_message (ha : x.assembly = some a) : let y := x.throughBoundary counter
    let tick := counter.toNat % 16 = 0
    let kept := y.counters = x.counters ∧ y.capture = x.capture ∧ y.lastTimedOut = x.lastTimedOut
    (¬tick → y.assembly = some a ∧ kept) ∧ (tick → a.ticks = 0 → y.assembly = some { a with ticks := 1 } ∧ kept) ∧
      (tick → 1 ≤ a.ticks → y.assembly = none ∧ y.lastTimedOut = some a.source ∧
        y.counters = { x.counters with discarded := oneMore x.counters.discarded } ∧ y.capture = offered x .service none counter) := by
  obtain ⟨hassembly, hcounters, hcapture, htimedOut, hlastGood⟩ := beforeMessage_kept x
  unfold Port.throughBoundary
  generalize x.passHoldover.tickWindow = y at hassembly hcounters hcapture htimedOut hlastGood ⊢
  rw [ha] at hassembly
  have htick : serviceTick counter = true ↔ counter.toNat % 16 = 0 := beq_iff_eq
  refine ⟨fun h => ?_, fun h hfirst => ?_, fun h hsecond => ?_⟩
  · have hstays : y.passMessage counter = y := by
      simp only [Port.passMessage, hassembly]
      exact if_neg (mt htick.1 h)
    rw [hstays]
    exact ⟨hassembly, hcounters, hcapture, htimedOut⟩
  · have hcounted : y.passMessage counter = { y with assembly := some { a with ticks := 1 } } := by
      simp only [Port.passMessage, hassembly, htick.2 h, hfirst, if_true]
      rfl
    rw [hcounted]
    exact ⟨rfl, hcounters, hcapture, htimedOut⟩
  · have hended : y.passMessage counter = { y with
        assembly := none, lastTimedOut := some a.source
        counters := { y.counters with discarded := oneMore y.counters.discarded }, capture := offered y .service none counter } := by
      simp only [Port.passMessage, hassembly, htick.2 h, hsecond, if_true]
    rw [hended, hcounters, offered, hcapture, hlastGood]
    exact ⟨rfl, rfl, rfl, rfl⟩

end

/-! ### The statement -/

/-- Settles O41: by the codes of the service word (`exec_word`), by abandonment (`exec_abandons`), and by the ports' share of a
boundary (`boundary_links`). -/
theorem serviceWordsAreAssembled : Obligations.ServiceWordsAreAssembled := by
  refine ⟨fun p f g s hp hst hf hg => ?_, fun p f index s hp hst ha h => exec_abandons hp hst ha h, fun s hp hr ht => ?_⟩
  · obtain ⟨u, cls, hu, hcls, hassembly, hcounter, hnode, -, hword⟩ := exec_word hp hst hf hg
    rw [← hassembly, ← hcounter, ← hnode]
    refine ⟨u, hu, rfl, fun hcode => ⟨fun ha => ?_, fun ha => ?_⟩, fun hcode ha => ?_, fun a ha =>
      ⟨fun hcode => ⟨fun hroom => ?_, fun hlong => ?_⟩, fun hcode => ⟨fun hbad => ?_, fun first rest hwords hlong hcheck hother => ?_⟩⟩⟩
    · exact (hword _ _ hcode).1 (takeServiceWord_start_none hcls ha)
    · obtain ⟨a, ha⟩ := Option.isSome_iff_exists.1 ha
      exact (hword _ _ hcode).1 (takeServiceWord_start_some hcls ha)
    · refine ((hword _ _ rfl).1 (takeServiceWord_stray hcls hcode ha)).trans ?_
      rw [modPort_self rfl]
    · exact (hword _ _ hcode).1 (takeServiceWord_data hcls ha hroom)
    · exact (hword _ _ hcode).1 (takeServiceWord_data_tooLong hcls ha hlong)
    · exact (hword _ _ hcode).1 (takeServiceWord_fin_bad hcls ha hbad)
    · exact (hword _ _ hcode).1 (takeServiceWord_fin_notOurs hcls ha hwords hlong hcheck hother)
  · obtain ⟨-, hports, -⟩ := boundary_links hr ht
    refine ⟨s.boundary, live_on hp _, fun p a ha => ?_⟩
    rw [hports p]
    exact throughBoundary_message ha

end Sys2Proof.Machine
end

-- Proofs/PayloadReaders: a request's operands are read back from their words
section
/-! `Reads r ws a`: the reader takes the words `ws` to `a` and leaves what follows. `ReadsWhole r ws a`: it takes them as a payload that
they fill. One rule for each reader of `Machine/Operands` and `Machine/Intake`, in their order (R179, R193, section 9.6). -/

namespace Sys2Proof.Machine

/-! ### Readers in sequence -/

/-- The reader takes these words to `a`, whatever follows them, and leaves that. -/
def Reads {α : Type} (r : Read α) (ws : List Word) (a : α) : Prop := ∀ rest, r (ws ++ rest) = some (a, rest)

/-- The reader takes a payload of these words to `a`, and leaves no word. -/
def ReadsWhole {α : Type} (r : Read α) (ws : List Word) (a : α) : Prop := r ws = some (a, [])

section
variable {α β : Type} {r : Read α} {k : α → Read β} {ws ws' : List Word} {w : Word} {a : α} {b : β}

theorem reads_pure (a : α) : Reads (pure a) [] a := fun _ => rfl

theorem Reads.bind (h : Reads r ws a) (hk : Reads (k a) ws' b) : Reads (r >>= k) (ws ++ ws') b := fun rest => by
  have hrun (l : List Word) : (r >>= k) l = (r l).bind fun x => k x.1 x.2 := rfl
  rw [hrun, List.append_assoc, h, Option.bind_some, hk]

/-- A reader of one word, then another reader. -/
theorem Reads.cons (h : Reads r [w] a) (hk : Reads (k a) ws b) : Reads (r >>= k) (w :: ws) b := h.bind hk

/-- A last reader, with what is made of its value. -/
theorem Reads.map (h : Reads r ws a) (f : α → β) : Reads (r >>= fun x => pure (f x)) ws (f a) := by
  have hboth := h.bind (k := fun x => pure (f x)) (reads_pure (f a))
  rwa [List.append_nil] at hboth

theorem Reads.whole (h : Reads r ws a) : ReadsWhole r ws a := by
  have hrun := h []
  rwa [List.append_nil] at hrun

theorem Reads.thenWhole (h : Reads r ws a) (hk : ReadsWhole (k a) ws' b) : ReadsWhole (r >>= k) (ws ++ ws') b := by
  have hrun (l : List Word) : (r >>= k) l = (r l).bind fun x => k x.1 x.2 := rfl
  rw [ReadsWhole, hrun, h, Option.bind_some]
  exact hk

theorem Reads.consWhole (h : Reads r [w] a) (hk : ReadsWhole (k a) ws b) : ReadsWhole (r >>= k) (w :: ws) b := h.thenWhole hk

theorem ReadsWhole.map (h : ReadsWhole r ws a) (f : α → β) : ReadsWhole (r >>= fun x => pure (f x)) ws (f a) := by
  have hrun (l : List Word) : (r >>= fun x => pure (f x)) l = (r l).bind fun x => some (f x.1, x.2) := rfl
  rw [ReadsWhole, hrun, h, Option.bind_some]

/-- A request's answer to a payload that its reader takes whole (R179). -/
theorem answerRead_whole (h : ReadsWhole r ws a) (f : α → State → Answer) : answerRead r ws f = f a := by
  have hrun : r ws = some (a, []) := h
  funext s
  simp only [answerRead, readAll, hrun]

end

/-! ### One value -/

section
variable {α : Type}

theorem reads_word (w : Word) : Reads readWord [w] w := fun _ => rfl

theorem toNat_wordOf {n : Nat} (h : wordFits n = true) : (wordOf n).toNat = n := by
  simp only [wordFits, decide_eq_true_eq] at h
  simp only [wordOf, BitVec.toNat_ofNat]
  omega

theorem reads_nat {n : Nat} (h : wordFits n = true) : Reads readNat [wordOf n] n := by
  have hread := (reads_word (wordOf n)).map BitVec.toNat
  rwa [toNat_wordOf h] at hread

/-- A choice word reads as the value it names (R193). -/
theorem reads_named {values : List α} {w : Word} {x : α} (h : values[w.toNat]? = some x) : Reads (readNamed values) [w] x := by
  intro rest
  have hrun : readNamed values ([w] ++ rest) = (named values w).map fun y => (y, rest) := by
    show StateT.lift (named values w) rest = _
    cases named values w <;> rfl
  rw [hrun, named, h]
  rfl

theorem reads_flag (on : Bool) : Reads readFlag [onOffWord on] on := by
  cases on <;> exact reads_named rfl

theorem reads_clearFirst (set : Bool) : Reads readClearFirst [setWord set] set := by
  cases set <;> exact reads_named rfl

theorem reads_bank (k : Bank) : Reads (readNamed allBanks) [bankWord k] k := by
  cases k <;> exact reads_named rfl

theorem reads_matrix (m : Matrix) : Reads (readNamed allMatrices) [matrixWord m] m := by
  cases m <;> exact reads_named rfl

theorem reads_source (role : SourceRole) : Reads (readNamed allSourceRoles) [sourceWord role] role := by
  cases role <;> exact reads_named rfl

theorem reads_role (role : Role) : Reads (readNamed allRoles) [roleWord role] role := by
  cases role <;> exact reads_named rfl

theorem reads_class (cls : AlarmClass) : Reads (readNamed allClasses) [classWord cls] cls := by
  cases cls <;> exact reads_named rfl

/-- A 32-bit quantity, high word first (R193). -/
theorem reads_long (x : Long) : Reads readLong (longWords x) x := by
  have hjoin : x.extractLsb' 16 16 ++ x.extractLsb' 0 16 = x := by
    ext i hi
    simp only [BitVec.getElem_append, BitVec.getElem_extractLsb']
    split
    · simp only [Nat.zero_add, ← BitVec.getLsbD_eq_getElem]
    · rw [← BitVec.getLsbD_eq_getElem]
      congr 1
      omega
  have hread := (reads_word (x.extractLsb' 16 16)).cons (k := fun high => do return high ++ (← readWord))
    ((reads_word (x.extractLsb' 0 16)).map fun low => x.extractLsb' 16 16 ++ low)
  rwa [hjoin] at hread

theorem reads_coef {x : Int} (h : coefFits x = true) : Reads readCoef [BitVec.ofInt 16 x] x := by
  simp only [coefFits, decide_eq_true_eq] at h
  have hread := (reads_word (BitVec.ofInt 16 x)).map BitVec.toInt
  have hvalue : (BitVec.ofInt 16 x).toInt = x := by
    rw [BitVec.toInt_ofInt]
    exact Int.bmod_eq_of_le (by omega) (by omega)
  rwa [hvalue] at hread

/-- A 32-bit value in two's complement (R193). -/
theorem reads_sample {x : Int} (h : sampleFits x = true) : Reads readSample (twoWords x) x := by
  simp only [sampleFits, decide_eq_true_eq] at h
  have hread := (reads_long (BitVec.ofInt 32 x)).map BitVec.toInt
  have hvalue : (BitVec.ofInt 32 x).toInt = x := by
    rw [BitVec.toInt_ofInt]
    exact Int.bmod_eq_of_le (by omega) (by omega)
  rwa [hvalue] at hread

theorem reads_biquad {x : Int} (h : biquadFits x = true) : Reads readBiquad (twoWords x) x := by
  simp only [biquadFits, decide_eq_true_eq] at h
  have hsample : sampleFits x = true := by
    simp only [sampleFits, decide_eq_true_eq]
    omega
  have hrange : sampleMin ≤ x ∧ x ≤ sampleMax := h
  have hread := (reads_sample hsample).bind
    (k := fun x => if sampleMin ≤ x ∧ x ≤ sampleMax then return x else StateT.lift none) (ws' := []) (b := x)
    (by rw [if_pos hrange]; exact reads_pure x)
  rwa [List.append_nil] at hread

theorem reads_node (b : Byte) : Reads readNode [nodeWord b] b := by
  have hsmall : (nodeWord b).toNat ≤ 255 := by
    have := b.isLt
    simp only [nodeWord, BitVec.toNat_setWidth]
    omega
  have hbyte : (nodeWord b).extractLsb' 0 8 = b := by
    apply BitVec.eq_of_toNat_eq
    have := b.isLt
    simp only [nodeWord, BitVec.extractLsb'_toNat, BitVec.toNat_setWidth]
    omega
  refine (reads_word (nodeWord b)).bind (ws' := []) ?_
  rw [if_pos hsmall, hbyte]
  exact reads_pure b

end

/-! ### Optional items and lists -/

section
variable {α : Type} {r : Read α} {ws : List Word} {a : α}

theorem reads_optSome (h : Reads r ws a) : Reads (readOpt r) (0 :: ws) (some a) :=
  (reads_flag true).cons (h.map some)

theorem reads_optNone : Reads (readOpt r) [1] none :=
  (reads_flag false).cons (reads_pure none)

theorem reads_optNat {o : Option Nat} (h : optFits o = true) : Reads (readOpt readNat) (optionWords o) o := by
  cases o with
  | none => exact reads_optNone
  | some n => exact reads_optSome (reads_nat h)

section
variable {f : α → List Word} (l : List α) (h : ∀ x ∈ l, Reads r (f x) x)
include h

theorem reads_times : Reads (readTimes l.length r) (l.flatMap f) l := by
  induction l with
  | nil => exact reads_pure []
  | cons x l ih =>
    rw [List.flatMap_cons]
    exact (h x List.mem_cons_self).bind ((ih fun y hy => h y (List.mem_cons_of_mem x hy)).map (x :: ·))

/-- As many items as the payload holds, none of them empty. -/
theorem readsWhole_rest (hne : ∀ x, f x ≠ []) (fuel : Nat) (hfuel : l.length ≤ fuel) :
    ReadsWhole (readRest r fuel) (l.flatMap f) l := by
  induction l generalizing fuel with
  | nil => cases fuel <;> rfl
  | cons x l ih =>
    obtain ⟨fuel, rfl⟩ : ∃ k, fuel = k + 1 := ⟨fuel - 1, by simp only [List.length_cons] at hfuel; omega⟩
    have hrest := (ih (fun y hy => h y (List.mem_cons_of_mem x hy)) fuel (Nat.le_of_succ_le_succ hfuel)).map (x :: ·)
    have hitems := (h x List.mem_cons_self).thenWhole (k := fun a => do return a :: (← readRest r fuel)) hrest
    have hsome : ((x :: l).flatMap f).isEmpty = false := by
      rw [List.flatMap_cons, List.isEmpty_eq_false_iff]
      exact fun h => hne x (List.append_eq_nil_iff.1 h).1
    have hrun (words : List Word) : readRest r (fuel + 1) words = if words.isEmpty then some ([], words)
        else (do let a ← r; return a :: (← readRest r fuel) : Read (List α)) words := by
      cases words <;> rfl
    rw [ReadsWhole, hrun, hsome]
    exact hitems

end

theorem length_le_flatMap {α : Type} {f : α → List Word} (hne : ∀ x, f x ≠ []) (l : List α) :
    l.length ≤ (l.flatMap f).length := by
  induction l with
  | nil => exact Nat.le_refl _
  | cons x l ih =>
    have hx := List.length_pos_iff.2 (hne x)
    rw [List.flatMap_cons, List.length_append, List.length_cons]
    omega

end

/-! ### Operands of several words -/

/-- The number that names an alternative, among those from 0 (R193). -/
theorem reads_number {values : List Nat} {k : Nat} (h : values[(BitVec.ofNat 16 k).toNat]? = some k) :
    Reads (readNamed values) [BitVec.ofNat 16 k] k := reads_named h

theorem reads_drive {d : Drive} (h : d.wf = true) : Reads readDrive (driveOperand d) d := by
  cases d with
  | closeLine => exact (reads_number (k := 0) rfl).cons (reads_pure _)
  | openLine => exact (reads_number (k := 1) rfl).cons (reads_pure _)
  | pulse ms => exact (reads_number (k := 2) rfl).cons ((reads_nat h).map Drive.pulse)

theorem reads_action {x : CueAction} (h : x.wf = true) : Reads readAction (actionOperand x) x := by
  cases x with
  | contact line d =>
    obtain ⟨hline, hd⟩ := Bool.and_eq_true_iff.1 h
    exact (reads_number (k := 0) rfl).cons ((reads_nat hline).cons ((reads_drive hd).map (CueAction.contact line)))
  | fade t d =>
    obtain ⟨ht, hd⟩ := Bool.and_eq_true_iff.1 h
    exact (reads_number (k := 1) rfl).cons ((reads_nat ht).cons ((reads_nat hd).map (CueAction.fade t)))
  | mute on => exact (reads_number (k := 2) rfl).cons ((reads_flag on).map CueAction.mute)
  | eqBank k => exact (reads_number (k := 3) rfl).cons ((reads_bank k).map CueAction.eqBank)
  | format tag => exact (reads_number (k := 4) rfl).cons ((reads_optNat h).map CueAction.format)
  | source role => exact (reads_number (k := 5) rfl).cons ((reads_source role).map CueAction.source)
  | quiet d =>
    have hfits : d < 2 ^ 32 := of_decide_eq_true h
    have hread : Reads readAction (6 :: longWords (BitVec.ofNat 32 d)) (.quiet (BitVec.ofNat 32 d).toNat) :=
      (reads_number (k := 6) rfl).cons ((reads_long _).map fun x => CueAction.quiet x.toNat)
    rw [BitVec.toNat_ofNat, Nat.mod_eq_of_lt hfits] at hread
    exact hread
  | mark level => exact (reads_number (k := 7) rfl).cons ((reads_nat h).map CueAction.mark)

/-- CUE-LOAD's cue (R149). -/
theorem reads_cue {x : CueOperand} (hid : wordFits x.id = true) (haction : x.action.wf = true) :
    Reads readCue (wordOf x.id :: longWords x.program ++ longWords x.trigger ++ actionOperand x.action ++
      [onOffWord x.catchUp, setWord x.fireIfDue]) x := by
  simp only [List.cons_append, List.append_assoc]
  exact (reads_nat hid).cons ((reads_long x.program).bind ((reads_long x.trigger).bind ((reads_action haction).bind
    ((reads_flag x.catchUp).cons ((reads_clearFirst x.fireIfDue).map fun fireIfDue => { x with fireIfDue })))))

/-- A list of one-word entries (R179). -/
theorem readsWhole_ids {ids : List Nat} {other : Nat} (h : listFits other ids = true) :
    ReadsWhole (readRest readNat payloadMax) (ids.map wordOf) ids := by
  obtain ⟨hfits, hlen⟩ := Bool.and_eq_true_iff.1 h
  have hlen : other + ids.length ≤ 60 := of_decide_eq_true hlen
  have hmap : ids.map wordOf = ids.flatMap fun n => [wordOf n] := List.map_eq_flatMap
  rw [hmap]
  exact readsWhole_rest ids (fun n hn => reads_nat (List.all_eq_true.1 hfits n hn)) (fun _ => List.cons_ne_nil _ _) payloadMax
    (show ids.length ≤ 60 by omega)

theorem readsWhole_selection {x : CueSelection} (h : x.wf = true) : ReadsWhole readSelection (selectionOperand x) x := by
  cases x with
  | ids l => exact (reads_flag true).consWhole ((readsWhole_ids h).map CueSelection.ids)
  | all =>
    have hread : Reads readSelection [1] .all := (reads_flag false).cons (reads_pure _)
    exact hread.whole

/-- A speaker map item's fields (R60, assumption log 15). -/
theorem reads_entry {e : MapOperand} (hpartner : optFits e.partner = true) (hgain : wordFits e.gain = true) :
    Reads readEntry ((match (generalizing := false) e.role with | some role => [0, roleWord role] | none => [1]) ++
      [onOffWord e.expected] ++ optionWords e.partner ++ [wordOf e.gain]) e := by
  have hrole : Reads (readOpt (readNamed allRoles))
      (match (generalizing := false) e.role with | some role => [0, roleWord role] | none => [1]) e.role := by
    cases e.role with
    | some role => exact reads_optSome (reads_role role)
    | none => exact reads_optNone
  simp only [List.append_assoc, List.cons_append, List.nil_append]
  exact hrole.bind ((reads_flag e.expected).cons ((reads_optNat hpartner).bind ((reads_nat hgain).map fun gain => { e with gain })))

/-- A SCREEN-SET item (R60). -/
theorem reads_item {x : ScreenItem} (h : x.wf = true) : Reads readItem (itemOperand x) x := by
  cases x with
  | primary p => exact (reads_number (k := 0) rfl).cons ((reads_optNat h).map ScreenItem.primary)
  | alternate p => exact (reads_number (k := 1) rfl).cons ((reads_optNat h).map ScreenItem.alternate)
  | follow on => exact (reads_number (k := 2) rfl).cons ((reads_flag on).map ScreenItem.follow)
  | fallback tag => exact (reads_number (k := 3) rfl).cons ((reads_nat h).map ScreenItem.fallback)
  | override tag => exact (reads_number (k := 4) rfl).cons ((reads_optNat h).map ScreenItem.override)
  | mapEntry channel e =>
    obtain ⟨h, hgain⟩ := Bool.and_eq_true_iff.1 h
    obtain ⟨hchannel, hpartner⟩ := Bool.and_eq_true_iff.1 h
    have hentry := (reads_entry hpartner hgain).map (ScreenItem.mapEntry channel)
    simp only [itemOperand, List.append_assoc, List.cons_append, List.nil_append] at hentry ⊢
    exact (reads_number (k := 5) rfl).cons ((reads_nat hchannel).cons hentry)
  | foldEnable on => exact (reads_number (k := 6) rfl).cons ((reads_flag on).map ScreenItem.foldEnable)
  | meterSpeed speed => exact (reads_number (k := 7) rfl).cons ((reads_nat h).map ScreenItem.meterSpeed)
  | window ms => exact (reads_number (k := 8) rfl).cons ((reads_nat h).map ScreenItem.window)

theorem itemOperand_ne_nil (x : ScreenItem) : itemOperand x ≠ [] := by
  cases x <;> exact List.cons_ne_nil _ _

/-- FORMAT-LOAD BEGIN's operands (R67). -/
theorem reads_header {x : FormatHeader} (h : x.wf = true) : Reads readHeader ([wordOf x.tag, wordOf x.inputs,
    onOffWord x.steering.isSome, wordOf x.roles.length] ++ x.roles.map roleWord ++ (match (generalizing := false) x.steering with
      | some y => [wordOf y.first, wordOf y.second, wordOf y.shift, wordOf y.slew]
      | none => [])) x := by
  obtain ⟨tag, inputs, steering, roles⟩ := x
  simp only [FormatHeader.wf, Bool.and_eq_true, decide_eq_true_eq] at h
  obtain ⟨⟨⟨htag, hinputs⟩, hlen⟩, hsteering⟩ := h
  have hcount : wordFits roles.length = true := by
    simp only [wordFits, decide_eq_true_eq]
    omega
  have hroles : Reads (readTimes (min roles.length payloadMax) (readNamed allRoles)) (roles.map roleWord) roles := by
    have hall : min roles.length payloadMax = roles.length := Nat.min_eq_left (show roles.length ≤ 60 by omega)
    rw [hall, List.map_eq_flatMap]
    exact reads_times roles fun role _ => reads_role role
  simp only [List.cons_append, List.nil_append]
  cases steering with
  | none =>
    exact (reads_nat htag).cons ((reads_nat hinputs).cons ((reads_flag false).cons ((reads_nat hcount).cons (hroles.bind (reads_pure _)))))
  | some y =>
    simp only [Bool.and_eq_true] at hsteering
    obtain ⟨⟨⟨hfirst, hsecond⟩, hshift⟩, hslew⟩ := hsteering
    exact (reads_nat htag).cons ((reads_nat hinputs).cons ((reads_flag true).cons ((reads_nat hcount).cons (hroles.bind
      ((reads_nat hfirst).cons ((reads_nat hsecond).cons ((reads_nat hshift).cons ((reads_nat hslew).map fun slew =>
        FormatHeader.mk tag inputs (some { y with slew }) roles))))))))

/-- A section's five coefficients (R103). -/
theorem reads_coefs {x : Coefs} (h : x.wf = true) : Reads readCoefs (sectionOperand x) x := by
  simp only [Coefs.wf, Bool.and_eq_true] at h
  obtain ⟨⟨⟨⟨hb0, hb1⟩, hb2⟩, ha1⟩, ha2⟩ := h
  simp only [sectionOperand, List.append_assoc]
  exact (reads_biquad hb0).bind ((reads_biquad hb1).bind ((reads_biquad hb2).bind ((reads_biquad ha1).bind
    ((reads_biquad ha2).map fun a2 => { x with a2 }))))

theorem sectionOperand_ne_nil (x : Coefs) : sectionOperand x ≠ [] := List.cons_ne_nil _ _

/-- ALARM-SET's record (R115). -/
theorem reads_record {x : AlarmOperand} (h : x.wf = true) : Reads readRecord ([onOffWord x.enable, wordOf x.level] ++
    twoWords x.threshold ++ [wordOf x.count, wordOf x.window, wordOf x.release, onOffWord x.quiet]) x := by
  simp only [AlarmOperand.wf, Bool.and_eq_true] at h
  obtain ⟨⟨⟨⟨hlevel, hthreshold⟩, hcount⟩, hwindow⟩, hrelease⟩ := h
  simp only [List.cons_append, List.nil_append]
  exact (reads_flag x.enable).cons ((reads_nat hlevel).cons ((reads_sample hthreshold).bind ((reads_nat hcount).cons
    ((reads_nat hwindow).cons ((reads_nat hrelease).cons ((reads_flag x.quiet).map fun quiet => { x with quiet }))))))

/-- A notice route's port, node and optional share (R166). -/
theorem reads_route {x : RouteOperand} (hport : wordFits x.port = true)
    (hshare : ∀ count weight, x.share = some (count, weight) → wordFits count = true ∧ wordFits weight = true) :
    Reads readRoute ([wordOf x.port, nodeWord x.node] ++
      (match (generalizing := false) x.share with | some (count, weight) => [0, wordOf count, wordOf weight] | none => [1])) x := by
  obtain ⟨port, node, share⟩ := x
  have hread : Reads (readOpt (do return (← readNat, ← readNat)))
      (match (generalizing := false) share with | some (count, weight) => [0, wordOf count, wordOf weight] | none => [1]) share := by
    cases share with
    | none => exact reads_optNone
    | some pair =>
      obtain ⟨count, weight⟩ := pair
      obtain ⟨hcount, hweight⟩ := hshare count weight rfl
      exact reads_optSome ((reads_nat hcount).cons ((reads_nat hweight).map fun w => (count, w)))
  simp only [List.cons_append, List.nil_append]
  exact (reads_nat hport).cons ((reads_node node).cons (hread.map (RouteOperand.mk port node)))

end Sys2Proof.Machine
end

-- Proofs/RequestWords: a message with a request's words is taken as that request (O43)
section
/-! The payload words of a command read back as its operands (`exec_asWords`), its head and kind words name its request
(`takeMessage_request`), and the END word hands it to the service unit (`exec_word`) (R17, R19, R177, R179, R193, section 9.6). -/

namespace Sys2Proof.Machine

/-! ### Operands in sequence -/

section
variable {m n k j : Nat} {α : Type} {r : Read α} {w : Word} {a : α}

theorem reads_pair (hm : wordFits m = true) (hn : wordFits n = true) :
    Reads (do return (← readNat, ← readNat)) [wordOf m, wordOf n] (m, n) :=
  (reads_nat hm).cons ((reads_nat hn).map fun n => (m, n))

theorem reads_four (hm : wordFits m = true) (hn : wordFits n = true) (hk : wordFits k = true) (hj : wordFits j = true) :
    Reads (do return (← readNat, ← readNat, ← readNat, ← readNat)) [wordOf m, wordOf n, wordOf k, wordOf j] (m, n, k, j) :=
  (reads_nat hm).cons ((reads_nat hn).cons ((reads_nat hk).cons ((reads_nat hj).map fun j => (m, n, k, j))))

/-- A query form, then the part index (R181). -/
theorem reads_query {ws : List Word} (h : Reads r ws a) (hn : wordFits n = true) :
    Reads (do return (← r, ← readNat)) (ws ++ [wordOf n]) (a, n) := h.bind ((reads_nat hn).map fun n => (a, n))

end

/-! ### The forms that a screen number gives -/

section
variable {h : ReqHead} {b : Bool}

theorem onScreen_true (hs : h.onScreen = true) : decide (h.screen.toNat < 8) = true := hs

theorem onScreen_false (hs : (!h.onScreen) = true) : decide (h.screen.toNat < 8) = false := by
  rwa [Bool.not_eq_true'] at hs

theorem reads_formatQuery (q : FormatQuery) (hq : (match (generalizing := false) q with
      | .tag tag row => wordFits tag && !h.onScreen && (match (generalizing := false) row with
        | some (k, _) => wordFits k
        | none => true)
      | .screen => h.onScreen) = true) : Reads (readFormatQuery (decide (h.screen.toNat < 8))) (match (generalizing := false) q with
      | .tag tag row => wordOf tag :: (match (generalizing := false) row with | some (k, m) => [0, wordOf k, matrixWord m] | none => [1])
      | .screen => []) q := by
  cases q with
  | screen =>
    rw [onScreen_true hq]
    exact reads_pure _
  | tag tag row =>
    obtain ⟨hq, hrow⟩ := Bool.and_eq_true_iff.1 hq
    obtain ⟨htag, hs⟩ := Bool.and_eq_true_iff.1 hq
    rw [onScreen_false hs]
    have hread : Reads (readOpt (do return (← readNat, ← readNamed allMatrices)))
        (match (generalizing := false) row with | some (k, m) => [0, wordOf k, matrixWord m] | none => [1]) row := by
      cases row with
      | none => exact reads_optNone
      | some pair =>
        obtain ⟨k, m⟩ := pair
        exact reads_optSome ((reads_nat hrow).cons ((reads_matrix m).map fun m => (k, m)))
    exact (reads_nat htag).cons (hread.map (FormatQuery.tag tag))

theorem reads_eqQuery (q : EqQuery) (hq : (match (generalizing := false) q with
      | .screen => h.onScreen
      | .channel _ channel first => h.onScreen && wordFits channel && wordFits first
      | .part => !h.onScreen) = true) : Reads (readEqQuery (decide (h.screen.toNat < 8))) (match (generalizing := false) q with
      | .screen => [0]
      | .channel bank channel first => [1, bankWord bank, wordOf channel, wordOf first]
      | .part => []) q := by
  cases q with
  | screen =>
    rw [onScreen_true hq]
    exact (reads_number (k := 0) rfl).cons (reads_pure _)
  | channel bank channel first =>
    obtain ⟨hq, hfirst⟩ := Bool.and_eq_true_iff.1 hq
    obtain ⟨hs, hchannel⟩ := Bool.and_eq_true_iff.1 hq
    rw [onScreen_true hs]
    exact (reads_number (k := 1) rfl).cons ((reads_bank bank).cons ((reads_nat hchannel).cons
      ((reads_nat hfirst).map (EqQuery.channel bank channel))))
  | part =>
    rw [onScreen_false hq]
    exact reads_pure _

theorem reads_cueQuery (q : CueQuery) (hq : (match (generalizing := false) q with
      | .screen => h.onScreen
      | .cue id => h.onScreen && wordFits id
      | .list first => h.onScreen && wordFits first
      | .part => !h.onScreen) = true) : Reads (readCueQuery (decide (h.screen.toNat < 8))) (match (generalizing := false) q with
      | .screen => [0]
      | .cue id => [1, wordOf id]
      | .list first => [2, wordOf first]
      | .part => []) q := by
  cases q with
  | screen =>
    rw [onScreen_true hq]
    exact (reads_number (k := 0) rfl).cons (reads_pure _)
  | cue id =>
    obtain ⟨hs, hid⟩ := Bool.and_eq_true_iff.1 hq
    rw [onScreen_true hs]
    exact (reads_number (k := 1) rfl).cons ((reads_nat hid).map CueQuery.cue)
  | list first =>
    obtain ⟨hs, hfirst⟩ := Bool.and_eq_true_iff.1 hq
    rw [onScreen_true hs]
    exact (reads_number (k := 2) rfl).cons ((reads_nat hfirst).map CueQuery.list)
  | part =>
    rw [onScreen_false hq]
    exact reads_pure _

theorem reads_noticeQuery (q : NoticeQuery) (hq : (match (generalizing := false) q with
      | .screen => h.onScreen
      | .port port => !h.onScreen && wordFits port) = true) :
    Reads (readNoticeQuery (decide (h.screen.toNat < 8))) (match (generalizing := false) q with
      | .screen => []
      | .port port => [wordOf port]) q := by
  cases q with
  | screen =>
    rw [onScreen_true hq]
    exact reads_pure _
  | port port =>
    obtain ⟨hs, hport⟩ := Bool.and_eq_true_iff.1 hq
    rw [onScreen_false hs]
    exact (reads_nat hport).map NoticeQuery.port

end

/-! ### Every request by its payload -/

section
variable {s : State} {c : Instr} {h : ReqHead} {k : ReqKind}

/-- A request whose payload reads as the operands that its command takes. -/
theorem exec_asWords_of {α : Type} {r : Read α} {a : α} (hread : ReadsWhole r (operandWords c) a) (f : α → State → Answer)
    (hwords : answerWords h k (operandWords c) = answerRead r (operandWords c) f)
    (hx : exec c s = live s fun s => s.request h k (f a)) :
    exec c s = live s fun s => s.request h k (answerWords h k (operandWords c)) := by
  rw [hwords, answerRead_whole hread]
  exact hx

/-- A well-formed request does what its payload's words make of it (R179, R193, section 9.6). -/
theorem exec_asWords (hk : requestOf c = some (h, k)) (hwf : c.wf = true) (hlen : (operandWords c).length ≤ 60) :
    exec c s = live s fun s => s.request h k (answerWords h k (operandWords c)) := by
  cases c with
  | partStatus _ part =>
    obtain ⟨rfl, rfl⟩ := Option.some.inj hk
    exact exec_asWords_of (reads_nat hwf).whole answerPartStatus rfl rfl
  | partReset _ =>
    obtain ⟨rfl, rfl⟩ := Option.some.inj hk
    exact exec_asWords_of (reads_pure ()).whole (fun _ => answerPartReset h) rfl rfl
  | lockTake _ =>
    obtain ⟨rfl, rfl⟩ := Option.some.inj hk
    exact exec_asWords_of (reads_pure ()).whole (fun _ => answerLockTake h) rfl rfl
  | lockFree _ force =>
    obtain ⟨rfl, rfl⟩ := Option.some.inj hk
    exact exec_asWords_of (reads_clearFirst force).whole (answerLockFree h) rfl rfl
  | portRead _ port part =>
    obtain ⟨rfl, rfl⟩ := Option.some.inj hk
    obtain ⟨hport, hpart⟩ := Bool.and_eq_true_iff.1 hwf
    exact exec_asWords_of (reads_pair hport hpart).whole (fun a => answerPortRead a.1 a.2) rfl rfl
  | portSet _ port enable holdover dropCount dropWindow dropEnable =>
    obtain ⟨rfl, rfl⟩ := Option.some.inj hk
    obtain ⟨hwf, hwindow⟩ := Bool.and_eq_true_iff.1 hwf
    obtain ⟨hwf, hcount⟩ := Bool.and_eq_true_iff.1 hwf
    obtain ⟨hport, hholdover⟩ := Bool.and_eq_true_iff.1 hwf
    have hread : Reads readPortSet (operandWords (.portSet h port enable holdover dropCount dropWindow dropEnable)) _ :=
      (reads_nat hport).cons ((reads_flag enable).cons ((reads_nat hholdover).cons ((reads_nat hcount).cons
        ((reads_nat hwindow).cons ((reads_flag dropEnable).map (answerPortSet port enable holdover dropCount dropWindow))))))
    exact exec_asWords_of hread.whole (fun f => f) rfl rfl
  | portClear _ port =>
    obtain ⟨rfl, rfl⟩ := Option.some.inj hk
    exact exec_asWords_of (reads_nat hwf).whole answerPortClear rfl rfl
  | portRestart _ port =>
    obtain ⟨rfl, rfl⟩ := Option.some.inj hk
    exact exec_asWords_of (reads_nat hwf).whole answerPortRestart rfl rfl
  | screenRead _ part =>
    obtain ⟨rfl, rfl⟩ := Option.some.inj hk
    exact exec_asWords_of (reads_nat hwf).whole (answerScreenRead h) rfl rfl
  | screenSet _ items =>
    obtain ⟨rfl, rfl⟩ := Option.some.inj hk
    obtain ⟨hitems, hsize⟩ := Bool.and_eq_true_iff.1 hwf
    have hread := readsWhole_rest items (fun x hx => reads_item (List.all_eq_true.1 hitems x hx)) itemOperand_ne_nil payloadMax
      ((length_le_flatMap itemOperand_ne_nil items).trans hlen)
    exact exec_asWords_of hread (answerScreenSet h) rfl rfl
  | screenState _ target =>
    obtain ⟨rfl, rfl⟩ := Option.some.inj hk
    have hread : Reads (readNamed allScreenStates) (operandWords (.screenState h target)) target := by
      cases target <;> exact reads_named rfl
    exact exec_asWords_of hread.whole (answerScreenState h) rfl rfl
  | screenSource _ role =>
    obtain ⟨rfl, rfl⟩ := Option.some.inj hk
    exact exec_asWords_of (reads_source role).whole (answerScreenSource h) rfl rfl
  | screenReset _ =>
    obtain ⟨rfl, rfl⟩ := Option.some.inj hk
    exact exec_asWords_of (reads_pure ()).whole (fun _ => answerScreenReset h) rfl rfl
  | formatLoadBegin _ header =>
    obtain ⟨rfl, rfl⟩ := Option.some.inj hk
    exact exec_asWords_of (reads_header hwf).whole (answerFormatLoadBegin h) rfl rfl
  | formatLoadRows _ tag row matrix coefs =>
    obtain ⟨rfl, rfl⟩ := Option.some.inj hk
    obtain ⟨hwf, hmax⟩ := Bool.and_eq_true_iff.1 hwf
    obtain ⟨hwf, hcoefs⟩ := Bool.and_eq_true_iff.1 hwf
    obtain ⟨htag, hrow⟩ := Bool.and_eq_true_iff.1 hwf
    have hmax : coefs.length ≤ 57 := of_decide_eq_true hmax
    have hlist : ReadsWhole (readRest readCoef payloadMax) (coefs.map (BitVec.ofInt 16)) coefs := by
      rw [List.map_eq_flatMap]
      exact readsWhole_rest coefs (fun x hx => reads_coef (List.all_eq_true.1 hcoefs x hx)) (fun _ => List.cons_ne_nil _ _)
        payloadMax (show coefs.length ≤ 60 by omega)
    have hread : ReadsWhole (do return (← readNat, ← readNat, ← readNamed allMatrices, ← readRest readCoef payloadMax))
        (operandWords (.formatLoadRows h tag row matrix coefs)) (tag, row, matrix, coefs) :=
      (reads_nat htag).consWhole ((reads_nat hrow).consWhole ((reads_matrix matrix).consWhole (hlist.map fun l => (tag, row, matrix, l))))
    exact exec_asWords_of hread (fun a => answerFormatLoadRows h a.1 a.2.1 a.2.2.1 a.2.2.2) rfl rfl
  | formatLoadCommit _ tag =>
    obtain ⟨rfl, rfl⟩ := Option.some.inj hk
    exact exec_asWords_of (reads_nat hwf).whole (answerFormatLoadCommit h) rfl rfl
  | formatLoadClear _ tag =>
    obtain ⟨rfl, rfl⟩ := Option.some.inj hk
    exact exec_asWords_of (reads_nat hwf).whole answerFormatLoadClear rfl rfl
  | formatRead _ query part =>
    obtain ⟨rfl, rfl⟩ := Option.some.inj hk
    obtain ⟨hpart, hquery⟩ := Bool.and_eq_true_iff.1 hwf
    have hread := (reads_query (reads_formatQuery query hquery) hpart).whole
    cases query <;> exact exec_asWords_of hread (fun a => answerFormatRead h a.1 a.2) rfl rfl
  | eqLoadHead _ bank channel count delay trim =>
    obtain ⟨rfl, rfl⟩ := Option.some.inj hk
    obtain ⟨hwf, htrim⟩ := Bool.and_eq_true_iff.1 hwf
    obtain ⟨hwf, hdelay⟩ := Bool.and_eq_true_iff.1 hwf
    obtain ⟨hchannel, hcount⟩ := Bool.and_eq_true_iff.1 hwf
    have hread := (reads_bank bank).cons (k := fun bank => do return (bank, ← readNat, ← readNat, ← readNat, ← readNat))
      ((reads_nat hchannel).cons ((reads_nat hcount).cons ((reads_nat hdelay).cons ((reads_nat htrim).map fun trim =>
        (bank, channel, count, delay, trim)))))
    exact exec_asWords_of hread.whole (fun a => answerEqLoadHead h a.1 a.2.1 a.2.2.1 a.2.2.2.1 a.2.2.2.2) rfl rfl
  | eqLoadSections _ bank channel first sections =>
    obtain ⟨rfl, rfl⟩ := Option.some.inj hk
    obtain ⟨hwf, hmax⟩ := Bool.and_eq_true_iff.1 hwf
    obtain ⟨hwf, hsections⟩ := Bool.and_eq_true_iff.1 hwf
    obtain ⟨hchannel, hfirst⟩ := Bool.and_eq_true_iff.1 hwf
    have hmax : sections.length ≤ 6 := of_decide_eq_true hmax
    have hlist := readsWhole_rest sections (fun x hx => reads_coefs (List.all_eq_true.1 hsections x hx)) sectionOperand_ne_nil
      payloadMax (show sections.length ≤ 60 by omega)
    have hread : ReadsWhole (do return (← readNamed allBanks, ← readNat, ← readNat, ← readRest readCoefs payloadMax))
        (operandWords (.eqLoadSections h bank channel first sections)) (bank, channel, first, sections) :=
      (reads_bank bank).consWhole ((reads_nat hchannel).consWhole ((reads_nat hfirst).consWhole
        (hlist.map fun l => (bank, channel, first, l))))
    exact exec_asWords_of hread (fun a => answerEqLoadSections h a.1 a.2.1 a.2.2.1 a.2.2.2) rfl rfl
  | eqRead _ query part =>
    obtain ⟨rfl, rfl⟩ := Option.some.inj hk
    obtain ⟨hpart, hquery⟩ := Bool.and_eq_true_iff.1 hwf
    have hread := (reads_query (reads_eqQuery query hquery) hpart).whole
    cases query <;> exact exec_asWords_of hread (fun a => answerEqRead h a.1 a.2) rfl rfl
  | eqSelect _ bank =>
    obtain ⟨rfl, rfl⟩ := Option.some.inj hk
    exact exec_asWords_of (reads_bank bank).whole (answerEqSelect h) rfl rfl
  | fade _ target duration =>
    obtain ⟨rfl, rfl⟩ := Option.some.inj hk
    obtain ⟨htarget, hduration⟩ := Bool.and_eq_true_iff.1 hwf
    exact exec_asWords_of (reads_pair htarget hduration).whole (fun a => answerFade h a.1 a.2) rfl rfl
  | mute _ on =>
    obtain ⟨rfl, rfl⟩ := Option.some.inj hk
    exact exec_asWords_of (reads_flag on).whole (answerMute h) rfl rfl
  | meterRead _ part =>
    obtain ⟨rfl, rfl⟩ := Option.some.inj hk
    exact exec_asWords_of (reads_nat hwf).whole (answerMeterRead h) rfl rfl
  | alarmSet _ cls record =>
    obtain ⟨rfl, rfl⟩ := Option.some.inj hk
    have hread : Reads (do return (← readNamed allClasses, ← readRecord)) (operandWords (.alarmSet h cls record)) (cls, record) :=
      (reads_class cls).cons ((reads_record hwf).map fun x => (cls, x))
    exact exec_asWords_of hread.whole (fun a => answerAlarmSet h a.1 a.2) rfl rfl
  | alarmRead _ id part =>
    obtain ⟨rfl, rfl⟩ := Option.some.inj hk
    obtain ⟨hid, hpart⟩ := Bool.and_eq_true_iff.1 hwf
    exact exec_asWords_of (reads_query (reads_optNat hid) hpart).whole (fun a => answerAlarmRead h a.1 a.2) rfl rfl
  | alarmAck _ ids =>
    obtain ⟨rfl, rfl⟩ := Option.some.inj hk
    exact exec_asWords_of (readsWhole_ids hwf) (answerAlarmAck h) rfl rfl
  | alarmTest _ ids =>
    obtain ⟨rfl, rfl⟩ := Option.some.inj hk
    exact exec_asWords_of (readsWhole_ids hwf) (answerAlarmTest h) rfl rfl
  | cueLoad _ cue =>
    obtain ⟨rfl, rfl⟩ := Option.some.inj hk
    obtain ⟨hid, haction⟩ := Bool.and_eq_true_iff.1 hwf
    exact exec_asWords_of (reads_cue hid haction).whole (answerCueLoad h) rfl rfl
  | cueDelete _ which =>
    obtain ⟨rfl, rfl⟩ := Option.some.inj hk
    exact exec_asWords_of (readsWhole_selection hwf) (answerCueDelete h) rfl rfl
  | cueRead _ query part =>
    obtain ⟨rfl, rfl⟩ := Option.some.inj hk
    obtain ⟨hpart, hquery⟩ := Bool.and_eq_true_iff.1 hwf
    have hread := (reads_query (reads_cueQuery query hquery) hpart).whole
    cases query <;> exact exec_asWords_of hread (fun a => answerCueRead h a.1 a.2) rfl rfl
  | cueFire _ id =>
    obtain ⟨rfl, rfl⟩ := Option.some.inj hk
    exact exec_asWords_of (reads_nat hwf).whole (answerCueFire h) rfl rfl
  | cueRearm _ which =>
    obtain ⟨rfl, rfl⟩ := Option.some.inj hk
    exact exec_asWords_of (readsWhole_selection hwf) (answerCueRearm h) rfl rfl
  | contactSet _ line owner mode threshold =>
    obtain ⟨rfl, rfl⟩ := Option.some.inj hk
    obtain ⟨hwf, hthreshold⟩ := Bool.and_eq_true_iff.1 hwf
    obtain ⟨hline, howner⟩ := Bool.and_eq_true_iff.1 hwf
    have hmode : Reads (readNamed allModes) [match (generalizing := false) mode with | .cue => 0 | .alarm => 1] mode := by
      cases mode <;> exact reads_named rfl
    have hread : Reads (do return (← readNat, ← readOpt readNat, ← readNamed allModes, ← readNat))
        (wordOf line :: (optionWords owner ++ [match (generalizing := false) mode with | .cue => 0 | .alarm => 1, wordOf threshold]))
        (line, owner, mode, threshold) :=
      (reads_nat hline).cons ((reads_optNat howner).bind (hmode.cons ((reads_nat hthreshold).map fun n => (line, owner, mode, n))))
    exact exec_asWords_of hread.whole (fun a => answerContactSet a.1 a.2.1 a.2.2.1 a.2.2.2) rfl rfl
  | contactDrive _ line drive =>
    obtain ⟨rfl, rfl⟩ := Option.some.inj hk
    obtain ⟨hline, hdrive⟩ := Bool.and_eq_true_iff.1 hwf
    have hread : Reads (do return (← readNat, ← readDrive)) (operandWords (.contactDrive h line drive)) (line, drive) :=
      (reads_nat hline).cons ((reads_drive hdrive).map fun d => (line, d))
    exact exec_asWords_of hread.whole (fun a => answerContactDrive h a.1 a.2) rfl rfl
  | noticeDone _ tag =>
    obtain ⟨rfl, rfl⟩ := Option.some.inj hk
    have hread : Reads (readOpt readWord) (operandWords (.noticeDone h tag)) tag := by
      cases tag with
      | some w => exact reads_optSome (reads_word w)
      | none => exact reads_optNone
    exact exec_asWords_of hread.whole (answerNoticeDone h) rfl rfl
  | noticeRead _ query part =>
    obtain ⟨rfl, rfl⟩ := Option.some.inj hk
    obtain ⟨hpart, hquery⟩ := Bool.and_eq_true_iff.1 hwf
    have hread := (reads_query (reads_noticeQuery query hquery) hpart).whole
    cases query <;> exact exec_asWords_of hread (fun a => answerNoticeRead h a.1 a.2) rfl rfl
  | noticeRouteScreen _ route =>
    obtain ⟨rfl, rfl⟩ := Option.some.inj hk
    obtain ⟨hs, hroute⟩ := Bool.and_eq_true_iff.1 hwf
    have hread : Reads (readOpt readRoute) (operandWords (.noticeRouteScreen h route)) route := by
      cases route with
      | none => exact reads_optNone
      | some x =>
        obtain ⟨hport, hshare⟩ := Bool.and_eq_true_iff.1 hroute
        refine reads_optSome (reads_route hport fun count weight hx => ?_)
        rw [hx] at hshare
        exact Bool.and_eq_true_iff.1 hshare
    exact exec_asWords_of hread.whole (answerNoticeRouteScreen h) rfl rfl
  | noticeRoutePort _ port count weight interval =>
    obtain ⟨rfl, rfl⟩ := Option.some.inj hk
    obtain ⟨hwf, hinterval⟩ := Bool.and_eq_true_iff.1 hwf
    obtain ⟨hwf, hweight⟩ := Bool.and_eq_true_iff.1 hwf
    obtain ⟨hwf, hcount⟩ := Bool.and_eq_true_iff.1 hwf
    obtain ⟨hs, hport⟩ := Bool.and_eq_true_iff.1 hwf
    exact exec_asWords_of (reads_four hport hcount hweight hinterval).whole
      (fun a => answerNoticeRoutePort a.1 a.2.1 a.2.2.1 a.2.2.2) rfl rfl
  | powerOn _ | partResetTakesEffect | programFrameArrival _ _ | masterFrame | arbiterGrant _ | messageSent _ | noticeChoice _
  | rackFrameArrival _ _ | masterBlockBoundary | crossfadeEnd _ | qualifyWindowExpiry _ _ | releaseComplete _ _ | holdoverExpiry _
  | fastDropWindowClose _ | exchangeTimeout _ | serviceTimeout _ | responseExpiry _ | arbiterReload _ | quietIntervalEnd _
  | contactPulseEnd _ | unknownRequest _ _ _ | powerLoss => cases hk

end

/-! ### The head of a message -/

section
variable {s : State} {p : Fin 12} {destination source : Byte} {response : Bool} {kind : BitVec 11} {screen : BitVec 4} {tag : Word}
  {payload : List Word} {check : Word}

theorem destination_of_words : (destination ++ source).extractLsb' 8 8 = destination := BitVec.extractLsb'_append_eq_left

theorem source_of_words : (destination ++ source).extractLsb' 0 8 = source := BitVec.extractLsb'_append_eq_right

theorem screen_of_words : (BitVec.ofBool response ++ kind ++ screen).extractLsb' 0 4 = screen := BitVec.extractLsb'_append_eq_right

theorem kind_of_words : (BitVec.ofBool response ++ kind ++ screen).extractLsb' 4 11 = kind := by
  ext i hi
  simp only [BitVec.getElem_extractLsb', BitVec.getLsbD_append]
  have hbeyond : ¬4 + i < 4 := by omega
  rw [if_neg hbeyond, Nat.add_sub_cancel_left, if_pos hi]
  exact BitVec.getLsbD_eq_getElem hi

theorem response_of_words : (BitVec.ofBool response ++ kind ++ screen).getLsbD 15 = response := by
  rw [BitVec.getLsbD_append, BitVec.getLsbD_append]
  cases response <;> rfl

/-- A message with the response mark is an unknown request (R177). -/
theorem takeMessage_response (hr : response = true) : s.takeMessage p
    ((destination ++ source) :: (BitVec.ofBool response ++ kind ++ screen) :: tag :: (payload ++ [check])) =
      s.requestUnknown { port := p, source, tag, screen } kind := by
  simp only [State.takeMessage, source_of_words, screen_of_words, kind_of_words, response_of_words, hr, if_true]

/-- A message of a kind that names no request is an unknown request (R177). -/
theorem takeMessage_unnamed (hk : kindOf kind screen = none) : s.takeMessage p
    ((destination ++ source) :: (BitVec.ofBool response ++ kind ++ screen) :: tag :: (payload ++ [check])) =
      s.requestUnknown { port := p, source, tag, screen } kind := by
  simp only [State.takeMessage, source_of_words, screen_of_words, kind_of_words, response_of_words, hk, ite_self]

/-- A message of a request's kind is that request, with what its payload spells (R177, R179, R193). -/
theorem takeMessage_request {k : ReqKind} (hr : response = false) (hk : kindOf kind screen = some k) : s.takeMessage p
    ((destination ++ source) :: (BitVec.ofBool response ++ kind ++ screen) :: tag :: (payload ++ [check])) =
      s.request { port := p, source, tag, screen } k (answerWords { port := p, source, tag, screen } k payload) := by
  simp only [State.takeMessage, source_of_words, screen_of_words, kind_of_words, response_of_words, hr, hk,
    List.dropLast_concat, Bool.false_eq_true, if_false]

end

/-- A request's number names its kind; NOTICE-ROUTE's form follows the screen number (R167, R177, R193). -/
theorem kindOf_number {k : ReqKind} {screen : BitVec 4} (hport : k = .noticeRoutePort → screen = 15)
    (hscreen : k = .noticeRouteScreen → screen ≠ 15) : kindOf k.number screen = some k := by
  cases k
  case noticeRoutePort => exact if_pos ⟨rfl, hport rfl⟩
  case noticeRouteScreen => exact if_neg fun h => hscreen rfl h.2
  all_goals exact if_neg fun h => absurd h.1 (by decide)

/-! ### The statement -/

/-- The screen number of a well-formed NOTICE-ROUTE gives its form (R167). -/
theorem requestOf_form {c : Instr} {h : ReqHead} {k : ReqKind} (hk : requestOf c = some (h, k)) (hwf : c.wf = true) :
    (k = .noticeRoutePort → h.screen = 15) ∧ (k = .noticeRouteScreen → h.screen ≠ 15) := by
  cases c
  case noticeRouteScreen =>
    obtain ⟨rfl, rfl⟩ := Option.some.inj hk
    obtain ⟨hs, -⟩ := Bool.and_eq_true_iff.1 hwf
    exact ⟨nofun, fun _ h15 => of_decide_eq_true hs (congrArg BitVec.toNat h15)⟩
  case noticeRoutePort =>
    obtain ⟨rfl, rfl⟩ := Option.some.inj hk
    simp only [Instr.wf, Bool.and_eq_true, decide_eq_true_eq] at hwf
    exact ⟨fun _ => BitVec.eq_of_toNat_eq hwf.1.1.1.1, nofun⟩
  all_goals cases hk <;> exact ⟨nofun, nofun⟩

/-- Settles O43: the END word hands the message to the service unit after the frame's work (`exec_word`), its head names the request
(`takeMessage_request`), and its payload the operands (`exec_asWords`). -/
theorem payloadWordsSpellTheOperands : Obligations.PayloadWordsSpellTheOperands := by
  intro p f g a c h k s hp hst hf hg hcode ha hk hwf hport hlen hwords hcheck
  obtain ⟨u, cls, hu, hcls, hassembly, -, hnode, hpower, hword⟩ := exec_word hp hst hf hg
  obtain ⟨htoPort, htoScreen⟩ := requestOf_form hk hwf
  refine ⟨u, hu, ?_⟩
  have hlong : 3 ≤ a.words.length := by
    rw [hwords]
    simp only [List.length_cons]
    omega
  have hours := takeServiceWord_fin_ours (index := some (headerIndex f.header)) hcls (hassembly.trans ha) hwords hlong hcheck
    (destination_of_words.trans hnode.symm)
  have htook : (u.modPort p fun y => { y with assembly := none }).powered = true := hpower
  rw [(hword _ _ hcode).2 _ hours, exec_asWords hk hwf hlen, live_on htook, hwords]
  have htaken := takeMessage_request (s := u.modPort p fun y => { y with assembly := none }) (p := p) (destination := s.node)
    (source := h.source) (response := false) (tag := h.tag) (payload := operandWords c) (check := f.service) rfl
    (kindOf_number htoPort htoScreen)
  refine congrArg _ (htaken.trans ?_)
  subst hport
  rfl

end Sys2Proof.Machine
end

-- Proofs/MessageExamples: a completed message at a LOCKED port (O42)
section
/-! The END word in a GOOD frame that completes no attempt: the frame fills the buffer, and the message is discarded, counted alone, or
taken as the request of its words (R17, R19, R176, R177, R193). -/

namespace Sys2Proof.Machine

/-! ### The frame and its END word -/

section
variable {s : State} {p : Fin 12} {f : LinkFrame 16} {e : Nat}

/-- A LOCKED port after a GOOD frame from index 12 on, where its buffer has room (R3, R11, R14). -/
def Port.fed (e : Nat) (slots : Slots) (x : Port) : Port :=
  { x with missRun := 0, stopRun := 0, expected := some ((e + 1) % 48), conceal := slots, buffer := x.buffer ++ [slots]
           started := x.started || decide (15 ≤ x.buffer.length) }

/-- A GOOD frame from index 12 on fills the buffer and does no more, but for its service word (R3, R11, R14). -/
theorem frameWork_fed (hl : s.ports[p].state = .locked) (he : s.ports[p].expected = some e) (hlate : 12 ≤ e) (hf : GoodFrame f e)
    (hroom : s.ports[p].buffer.length ≤ 31) : s.frameWork p f .good = s.modPort p (Port.fed e f.slots) := by
  have hnext : nextExpected (some e) .good (headerIndex f.header) = some ((e + 1) % 48) := by rw [hf.2.2]; rfl
  have hlands := frameWork_lands hl he (by decide) (.inl (by omega)) hnext rfl (takeLocked_good f.slots) hl rfl
  have hfull : ¬32 ≤ s.ports[p].buffer.length := by omega
  rw [hlands.1 hroom]
  refine modPort_congr ?_
  rw [notedByte, if_neg (by omega), if_neg (by omega), buffered]
  simp only [hfull, if_false]
  rfl

/-- The END word of a message whose frame fills the buffer. -/
theorem exec_fed (hp : s.powered = true) (hl : s.ports[p].state = .locked) (he : s.ports[p].expected = some e) (hlate : 12 ≤ e)
    (hf : GoodFrame f e) (hcode : headerCode f.header = .fin) (hroom : s.ports[p].buffer.length ≤ 31) {t : State} :
    let u := s.modPort p (Port.fed e f.slots)
    (u.takeServiceWord p .good .fin f.service (some e) = (t, none) → exec (.programFrameArrival p f) s = .next t) ∧
      ∀ words, u.takeServiceWord p .good .fin f.service (some e) = (t, some words) →
        exec (.programFrameArrival p f) s = .next (t.takeMessage p words) := by
  have hclass : classify s.ports[p].expected f = .good := classify_good hf (.inl he)
  have hst : s.ports[p].state ≠ .down := by rw [hl]; decide
  have hindex : s.arrivalIndex s.ports[p].expected .good (headerIndex f.header) = some e := by rw [hf.2.2]; rfl
  rw [← frameWork_fed hl he hlate hf hroom, ← hindex, ← hcode]
  exact ⟨fun h => exec_frame hp hst hclass (words := none) h, fun words h => exec_frame hp hst hclass (words := some words) h⟩

end

/-! ### What a message's words make of its state -/

section
variable {t : State} {p : Fin 12} {destination source : Byte} {response : Bool} {kind : BitVec 11} {screen : BitVec 4} {tag : Word}
  {payload : List Word} {check : Word} (hp : t.powered = true)
include hp

/-- A message with the response mark, or of a kind beyond the catalogue's, is an unknown request (R177). -/
theorem taken_unknown (h : response = true ∨ kind = 0 ∨ kind = 40) : .next (t.takeMessage p
    ((destination ++ source) :: (BitVec.ofBool response ++ kind ++ screen) :: tag :: (payload ++ [check]))) =
      exec (.unknownRequest { port := p, source, tag, screen } kind response) t := by
  rw [exec_unknownRequest hp]
  refine congrArg _ ?_
  rcases h with h | rfl | rfl
  · exact takeMessage_response h
  · exact takeMessage_unnamed (if_neg fun h => absurd h.1 (by decide))
  · exact takeMessage_unnamed (if_neg fun h => absurd h.1 (by decide))

/-- A message with the words of a well-formed request is taken as that request (R177, R179). -/
theorem taken_as {c : Instr} {k : ReqKind} (hk : requestOf c = some ({ port := p, source, tag, screen }, k)) (hwf : c.wf = true)
    (hlen : payload.length ≤ 60) (hr : response = false) (hkind : kind = k.number) (hwords : payload = operandWords c) :
    .next (t.takeMessage p
      ((destination ++ source) :: (BitVec.ofBool response ++ kind ++ screen) :: tag :: (payload ++ [check]))) = exec c t := by
  obtain ⟨htoPort, htoScreen⟩ := requestOf_form hk hwf
  subst hkind hwords
  rw [exec_asWords hk hwf hlen, live_on hp, takeMessage_request hr (kindOf_number htoPort htoScreen)]

end

theorem wordFits_toNat (w : Word) : wordFits w.toNat = true := by
  have := w.isLt
  simp only [wordFits, decide_eq_true_eq]
  omega

/-- A word is the operand of its own value. -/
theorem wordOf_toNat (w : Word) : wordOf w.toNat = w := BitVec.eq_of_toNat_eq (toNat_wordOf (wordFits_toNat w))

theorem longWords_append (high low : Word) : longWords (high ++ low) = [high, low] := by
  rw [longWords, BitVec.extractLsb'_append_eq_left, BitVec.extractLsb'_append_eq_right]

/-- EQ-READ's channel form on a screen, with one-word operands, is well formed (R106). -/
theorem eqRead_channel_fits {h : ReqHead} (bank : Bank) (channel first part : Word) (hs : h.screen.toNat ≤ 7) :
    (Instr.eqRead h (.channel bank channel.toNat first.toNat) part.toNat).wf = true := by
  have hscreen : h.onScreen = true := decide_eq_true (Nat.lt_succ_of_le hs)
  simp only [Instr.wf, hscreen, wordFits_toNat, Bool.and_self]

/-- A payload that does not hold SCREEN-SOURCE's role is refused with REFUSED-RANGE (R179). -/
theorem screenSource_misread {s : State} {h : ReqHead} {n : Fin 8} {payload : List Word} (hpayload : payload = [] ∨ payload = [2])
    (ht : s.canTake h.port = true) (hn : h.screen.toNat = n.val) (hfree : s.screenLocks[n] = 0) :
    s.request h .screenSource (answerWords h .screenSource payload) = s.refusedWith h .screenSource .range := by
  have hlock : s.lockedOut h .screen = false := by
    rw [State.lockedOut, lockHolder_screen s hn, hfree]
    rfl
  have hpasses : s.refusedBefore h .screenSource = none := by
    rw [refusedBefore_hasForm (.inl ⟨by omega, rfl⟩)]
    exact if_neg (by rw [ReqKind.cls, hlock]; exact Bool.false_ne_true)
  have hrefused : answerWords h .screenSource payload s = .refuse .range := by
    rcases hpayload with rfl | rfl <;> rfl
  rw [request_taken ht hpasses, hrefused]

/-! ### The statement -/

/-- Settles O42: the frame fills the buffer (`exec_fed`), and the END word discards the message, counts it alone, or takes it as the
request whose words it has (`taken_as`, `taken_unknown`). -/
theorem serviceMessagesReachTheirRequest : Obligations.ServiceMessagesReachTheirRequest := by
  intro p f e a s hp x words t hl he hlate hf hcode hroom ha
  let u := s.modPort p (Port.fed e f.slots)
  have ht : u.modPort p (fun y => { y with assembly := none }) = t := modPort_modPort s p _ _
  have hidle (g : Port → Port) : u.modPort p (fun y => g { y with assembly := none }) = t.modPort p g := by
    rw [← ht]
    exact (modPort_modPort u p _ g).symm
  have hassembly : u.ports[p].assembly = some a := (congrArg Port.assembly (modPort_at s p _)).trans ha
  have hcls : FrameClass.good = .good ∨ FrameClass.good = .stop := .inl rfl
  have hlen : words.length = a.words.length + 1 := List.length_append
  refine ⟨fun hbad => ?_, fun hlong hcheck destination source response kind screen tag payload hwords => ?_⟩
  · have hbad : a.words.length ≤ 2 ∨ messageCheck a.words ≠ f.service := hbad.imp_left fun h => by omega
    refine ((exec_fed hp hl he hlate hf hcode hroom).1 (takeServiceWord_fin_bad hcls hassembly hbad)).trans (congrArg _ ?_)
    exact hidle fun y => { y with counters := { y.counters with discarded := oneMore y.counters.discarded }
                                  capture := offered y .service (some e) s.blockCounter }
  have hlong : 3 ≤ a.words.length := by omega
  have hpower : t.powered = true := hp
  refine ⟨fun hother => ?_, fun hours => ?_⟩
  · refine ((exec_fed hp hl he hlate hf hcode hroom).1 (takeServiceWord_fin_notOurs hcls hassembly hwords hlong hcheck
      (by rw [destination_of_words]; exact hother))).trans (congrArg _ ?_)
    exact hidle fun y => { y with counters := { y.counters with discarded := oneMore y.counters.discarded } }
  have htaken : exec (.programFrameArrival p f) s = .next (t.takeMessage p ((destination ++ source) ::
      (BitVec.ofBool response ++ kind ++ screen) :: tag :: (payload ++ [f.service]))) := by
    refine ((exec_fed hp hl he hlate hf hcode hroom).2 _ (takeServiceWord_fin_ours hcls hassembly hwords hlong hcheck
      (by rw [destination_of_words]; exact hours))).trans ?_
    rw [ht, hwords]
    rfl
  rw [htaken]
  refine ⟨taken_unknown hpower, fun hr hk => ⟨fun hpay => ?_, fun hpay => ?_, fun hpay hcan hfree => ?_⟩, fun hr hk T D hpay => ?_,
    fun hr hk => ⟨fun hpay => ?_, fun hpay => ?_⟩, fun hr hk => ⟨fun part hs hpay => ?_, fun part hs hpay => ?_,
    fun channel first part hs => ⟨fun hpay => ?_, fun hpay => ?_⟩⟩, fun hr hk id p1 p0 q1 q0 T D behind early hpay => ?_⟩
  · exact taken_as hpower (c := .screenSource _ .primary) rfl rfl (by simp [hpay]) hr hk hpay
  · exact taken_as hpower (c := .screenSource _ .alternate) rfl rfl (by simp [hpay]) hr hk hpay
  · obtain ⟨n, hn, hlock⟩ := hfree
    have hkind : kindOf kind screen = some .screenSource := by
      rw [hk]
      exact kindOf_number (k := .screenSource) nofun nofun
    rw [takeMessage_request hr hkind]
    exact congrArg _ (screenSource_misread hpay ((canTake_iff _ _).2 ⟨hcan.2.1, hcan.2.2⟩) hn hlock)
  · have hfits : (Instr.fade { port := p, source, tag, screen } T.toNat D.toNat).wf = true :=
      Bool.and_eq_true_iff.2 ⟨wordFits_toNat T, wordFits_toNat D⟩
    refine taken_as hpower rfl hfits (by simp [hpay]) hr hk ?_
    rw [hpay, operandWords, wordOf_toNat, wordOf_toNat]
  · exact taken_as hpower (c := .lockFree _ false) rfl rfl (by simp [hpay]) hr hk hpay
  · exact taken_as hpower (c := .lockFree _ true) rfl rfl (by simp [hpay]) hr hk hpay
  · have hfits : (Instr.eqRead { port := p, source, tag, screen } .part part.toNat).wf = true :=
      Bool.and_eq_true_iff.2 ⟨wordFits_toNat part, by rw [ReqHead.onScreen, hs]; rfl⟩
    refine taken_as hpower rfl hfits (by simp [hpay]) hr hk ?_
    rw [hpay, operandWords, wordOf_toNat]
  · have hfits : (Instr.eqRead { port := p, source, tag, screen } .screen part.toNat).wf = true :=
      Bool.and_eq_true_iff.2 ⟨wordFits_toNat part, decide_eq_true (Nat.lt_succ_of_le hs)⟩
    refine taken_as hpower rfl hfits (by simp [hpay]) hr hk ?_
    rw [hpay, operandWords, wordOf_toNat]
  · refine taken_as hpower rfl (eqRead_channel_fits .a channel first part hs) (by simp [hpay]) hr hk ?_
    simp only [hpay, operandWords, wordOf_toNat, bankWord]
  · refine taken_as hpower rfl (eqRead_channel_fits .b channel first part hs) (by simp [hpay]) hr hk ?_
    simp only [hpay, operandWords, wordOf_toNat, bankWord]
  · have hfits : (Instr.cueLoad { port := p, source, tag, screen } { id := id.toNat, program := p1 ++ p0, trigger := q1 ++ q0
                                                                     action := .fade T.toNat D.toNat, catchUp := behind
                                                                     fireIfDue := early }).wf = true :=
      Bool.and_eq_true_iff.2 ⟨wordFits_toNat id, Bool.and_eq_true_iff.2 ⟨wordFits_toNat T, wordFits_toNat D⟩⟩
    refine taken_as hpower rfl hfits (by simp [hpay]) hr hk ?_
    simp only [hpay, operandWords, longWords_append, actionOperand, wordOf_toNat, onOffWord, setWord, List.cons_append, List.nil_append]

end Sys2Proof.Machine
end

-- Proofs/CueUpdates: what a position update does to the screen that hears it
section
/-! A position update reaches one screen (`forScreens_single`). Its handling goes through the cue list in list order; a cue is settled in
place and the others stay (`actOn_cues`), so that each cue is met as it stood (`cuePass_forEach`, `passCues_cues`). From there the
vocabulary of the statements follows: `HandledUpdate`, `TakesUpdate` (R48, R54, R56, R57, R59, R138 to R142). -/

namespace Sys2Proof.Machine

/-! ### Operations on one screen -/

/-- `t` is `s` after an operation on screen `n` and on the contact lines alone. -/
def OnScreen (n : Fin 8) (s t : State) : Prop :=
  t = { s with screens := t.screens, lines := t.lines } ∧ ∀ m : Fin 8, m ≠ n → t.screens[m] = s.screens[m]

section
variable {n : Fin 8}

theorem OnScreen.refl (s : State) : OnScreen n s s := ⟨rfl, fun _ _ => rfl⟩

theorem OnScreen.trans {s t u : State} (h : OnScreen n s t) (k : OnScreen n t u) : OnScreen n s u :=
  ⟨Eq.trans k.1 (congrArg (fun w : State => { w with screens := u.screens, lines := u.lines }) h.1),
    fun m hm => (k.2 m hm).trans (h.2 m hm)⟩

theorem onScreen_modScreen (s : State) (f : Screen → Screen) : OnScreen n s (s.modScreen n f) :=
  ⟨rfl, fun m hm => State.modScreen_other s n m f hm⟩

theorem onScreen_alarmEvent (s : State) (f : Monitor → Monitor) : OnScreen n s (s.alarmEvent n f) :=
  ⟨rfl, fun _ hm => alarmEvent_other hm f⟩

theorem onScreen_applyAction (s : State) (id : Nat) (a : CueAction) : OnScreen n s (s.applyAction n id a) := by
  cases a with
  | contact line d =>
    simp only [State.applyAction]
    split
    · exact ⟨rfl, fun _ _ => rfl⟩
    · exact .refl s
  | fade t d =>
    simp only [State.applyAction, State.takeFade]
    split
    · exact (onScreen_modScreen s _).trans (onScreen_alarmEvent _ _)
    · exact onScreen_modScreen s _
  | mute on =>
    simp only [State.applyAction, State.takeMute]
    split
    · exact (onScreen_modScreen s _).trans (onScreen_alarmEvent _ _)
    · exact onScreen_modScreen s _
  | quiet d =>
    simp only [State.applyAction, State.takeQuiet]
    split
    · exact onScreen_modScreen s _
    · split
      · exact onScreen_modScreen s _
      · exact (onScreen_modScreen s _).trans (onScreen_alarmEvent _ _)
  | eqBank _ | format _ | source _ | mark _ =>
    simp only [State.applyAction]
    exact onScreen_modScreen s _

theorem onScreen_fireCue (s : State) (c : Cue) : OnScreen n s (s.fireCue n c) := by
  unfold State.fireCue
  simp only
  split
  · exact onScreen_modScreen s _
  · exact (onScreen_applyAction s c.id c.action).trans (onScreen_modScreen _ _)

theorem onScreen_actOn (s : State) (c : Cue) (fate : CueFate) : OnScreen n s (s.actOn n c fate) := by
  cases fate with
  | leave => exact .refl s
  | fire => exact onScreen_fireCue s c
  | miss => exact (onScreen_modScreen s _).trans (onScreen_alarmEvent _ _)
  | pass =>
    simp only [State.actOn]
    exact onScreen_modScreen s _

theorem onScreen_handleCue (fate : Cue → CueFate) (id : Nat) (s : State) : OnScreen n s (State.handleCue fate n id s) := by
  cases hc : findCue id s.screens[n].cues with
  | none => rw [handleCue_absent hc]; exact .refl s
  | some c => rw [handleCue_found hc]; exact onScreen_actOn s c _

theorem onScreen_passCues (fate : Cue → CueFate) (s : State) : OnScreen n s (s.passCues fate n) :=
  forEach_keeps .refl (fun _ _ _ => .trans) _ (onScreen_handleCue fate) _ s

theorem onScreen_handleUpdate (s : State) (cls : Step) (program position : Long) :
    OnScreen n s (s.handleUpdate n cls program position) := by
  unfold State.handleUpdate
  cases cls with
  | single | forward | newProgram => exact (onScreen_passCues _ s).trans (onScreen_modScreen _ _)
  | backward => exact ((onScreen_modScreen s _).trans (onScreen_passCues _ _)).trans (onScreen_modScreen _ _)

theorem onScreen_leaveRunning (s : State) : OnScreen n s (s.leaveRunning n) := by
  unfold State.leaveRunning
  split
  · exact ((onScreen_modScreen s _).trans (onScreen_modScreen _ _)).trans (onScreen_alarmEvent _ _)
  · exact .refl s

theorem onScreen_enterStandby (s : State) : OnScreen n s (s.enterStandby n) := by
  unfold State.enterStandby
  exact (onScreen_leaveRunning s).trans (onScreen_modScreen _ _)

theorem onScreen_enterRunning (s : State) : OnScreen n s (s.enterRunning n) := by
  unfold State.enterRunning
  exact onScreen_modScreen s _

theorem onScreen_followUpdate (s : State) (play : Bool) : OnScreen n s (s.followUpdate n play) := by
  unfold State.followUpdate
  simp only
  split
  · exact onScreen_enterRunning s
  · split
    · exact onScreen_enterStandby s
    · exact .refl s

theorem onScreen_takeUpdate (s : State) (u : Update) : OnScreen n s (s.takeUpdate n u) := by
  unfold State.takeUpdate
  simp only
  split
  · exact (onScreen_handleUpdate s _ _ _).trans (onScreen_modScreen _ _)
  · exact onScreen_modScreen s _

theorem onScreen_hearUpdate (p : Fin 12) (u : Update) (s : State) : OnScreen n s (State.hearUpdate p u n s) := by
  unfold State.hearUpdate
  split
  · exact (onScreen_followUpdate s u.play).trans (onScreen_takeUpdate _ u)
  · exact .refl s

theorem onScreen_hearLost (p : Fin 12) (fields : Option LostFields) (s : State) : OnScreen n s (State.hearLost p fields n s) := by
  unfold State.hearLost
  simp only
  split
  · cases fields with
    | none => exact onScreen_modScreen s _
    | some f =>
      simp only
      split
      · exact (onScreen_enterStandby s).trans (onScreen_modScreen _ _)
      · exact onScreen_modScreen s _
  · exact .refl s

/-! ### One screen of the eight -/

/-- What only screen `n` acts on is done by it alone. -/
theorem forScreens_single {s : State} {f : Fin 8 → State → State} (hown : ∀ t, OnScreen n t (f n t))
    (hpass : ∀ m t, m ≠ n → t.screens[m] = s.screens[m] → f m t = t) : forScreens f s = f n s := by
  have hrun (items : List (Fin 8)) (hd : items.Nodup) (t : State) (ht : ∀ m ∈ items, m ≠ n → t.screens[m] = s.screens[m]) :
      forEach items f t = if n ∈ items then f n t else t := by
    induction items generalizing t with
    | nil => rfl
    | cons a items ih =>
      obtain ⟨ha, hd⟩ := List.nodup_cons.1 hd
      refine (ih hd (f a t) fun m hm hne => ?_).trans ?_
      · by_cases han : a = n
        · subst han
          exact ((hown t).2 m hne).trans (ht m (List.mem_cons_of_mem _ hm) hne)
        · rw [hpass a t han (ht a List.mem_cons_self han)]
          exact ht m (List.mem_cons_of_mem _ hm) hne
      · by_cases han : a = n
        · subst han
          rw [if_neg ha, if_pos List.mem_cons_self]
        · rw [hpass a t han (ht a List.mem_cons_self han)]
          simp only [List.mem_cons, Ne.symm han, false_or]
  exact (hrun _ (List.nodup_finRange 8) s fun _ _ _ => rfl).trans (if_pos (List.mem_finRange n))

end

/-! ### Cues settled in place -/

/-- A cue after its fate, with the outcome of a firing (R139, R142). -/
def Cue.settled (fate : CueFate) (outcome : CueOutcome) (c : Cue) : Cue :=
  match fate with
  | .leave => c
  | .fire => { c with state := .fired, outcome := some outcome, loadDue := false }
  | .miss => { c with state := .missed, outcome := none }
  | .pass => { c with state := .passed, outcome := none }

theorem settled_id (fate : CueFate) (outcome : CueOutcome) (c : Cue) : (c.settled fate outcome).id = c.id := by
  cases fate <;> rfl

section
variable {s : State} {n : Fin 8}

theorem modScreen_at (s : State) (n : Fin 8) (f : Screen → Screen) : (s.modScreen n f).screens[n] = f s.screens[n] := by
  rw [Fin.getElem_fin, State.modScreen_same]
  rfl

theorem modScreen_cues {f : Screen → Screen} (hf : (f s.screens[n]).cues = s.screens[n].cues) :
    (s.modScreen n f).screens[n].cues = s.screens[n].cues := by
  rw [modScreen_at, hf]

theorem alarmEvent_cues (s : State) (n : Fin 8) (f : Monitor → Monitor) :
    (s.alarmEvent n f).screens[n].cues = s.screens[n].cues := by
  rw [Fin.getElem_fin, alarmEvent_screens]
  simp

theorem applyAction_cues (s : State) (n : Fin 8) (id : Nat) (a : CueAction) :
    (s.applyAction n id a).screens[n].cues = s.screens[n].cues := by
  cases a with
  | contact line d =>
    have hscreens : (s.applyAction n id (.contact line d)).screens = s.screens := by
      simp only [State.applyAction]
      split <;> rfl
    exact congrArg (fun v : Vector Screen 8 => v[n].cues) hscreens
  | fade t d =>
    simp only [State.applyAction, State.takeFade]
    split
    · exact (alarmEvent_cues _ n _).trans (modScreen_cues rfl)
    · exact modScreen_cues rfl
  | mute on =>
    simp only [State.applyAction, State.takeMute]
    split
    · exact (alarmEvent_cues _ n _).trans (modScreen_cues rfl)
    · exact modScreen_cues rfl
  | quiet d =>
    simp only [State.applyAction, State.takeQuiet]
    split
    · exact modScreen_cues rfl
    · split
      · exact modScreen_cues rfl
      · exact (alarmEvent_cues _ n _).trans (modScreen_cues rfl)
  | eqBank _ | format _ | source _ | mark _ =>
    simp only [State.applyAction]
    exact modScreen_cues rfl

theorem modCues_cues (s : State) (n : Fin 8) (f : List Cue → List Cue) : (s.modCues n f).screens[n].cues = f s.screens[n].cues := by
  rw [State.modCues_eq, modScreen_at]

/-- Acting on one cue settles it in place, and leaves the others (R138, R139, R142). -/
theorem actOn_cues (s : State) (n : Fin 8) (k : Cue) (fate : CueFate) : ∃ outcome, (s.actOn n k fate).screens[n].cues =
    s.screens[n].cues.map fun c => if c.id = k.id then c.settled fate outcome else c := by
  refine ⟨s.outcomeOf n k.action, ?_⟩
  cases fate with
  | leave => simp [State.actOn, Cue.settled]
  | fire =>
    rw [State.actOn, State.fireCue, modCues_cues, updateCue_eq]
    split
    · rfl
    · rw [applyAction_cues]
      rfl
  | miss =>
    rw [State.actOn, State.occur, alarmEvent_cues, modCues_cues, updateCue_eq]
    rfl
  | pass =>
    rw [State.actOn, modCues_cues, updateCue_eq]
    rfl

theorem findCue_map {l : List Cue} {g : Cue → Cue} (hg : ∀ c, (g c).id = c.id) (id : Nat) :
    findCue id (l.map g) = (findCue id l).map g := by
  simp [findCue, List.find?_map, hg]

/-- A cue of another id is found as it stood. -/
theorem actOn_findCue (k : Cue) (fate : CueFate) {id : Nat} (hid : id ≠ k.id) {c : Cue} (hc : findCue id s.screens[n].cues = some c) :
    findCue id (s.actOn n k fate).screens[n].cues = some c := by
  obtain ⟨outcome, hcues⟩ := actOn_cues s n k fate
  have hfound : c.id = id := by simpa using List.find?_some hc
  rw [hcues, findCue_map, hc, Option.map_some, if_neg (by rw [hfound]; exact hid)]
  intro c
  split
  · exact settled_id fate outcome c
  · rfl

end

/-! ### A pass through the cues -/

section
variable {n : Fin 8} (fate : Cue → CueFate)

/-- What acting on a cue does, as the statements say it (R113, R138, R139, R142). -/
theorem actOn_fate (s : State) (k : Cue) : match fate k with
    | .fire => FiresCue n k s (s.actOn n k (fate k))
    | .miss => MissesCue n k s (s.actOn n k (fate k))
    | .pass => s.actOn n k (fate k) = settlesCue n k .passed s
    | .leave => s.actOn n k (fate k) = s := by
  have hsettles (st : CueState) : s.modCues n (updateCue k.id fun c => { c with state := st, outcome := none }) = settlesCue n k st s := by
    unfold settlesCue
    exact modScreen_congr (by simp only [updateCue_eq])
  cases fate k with
  | leave => rfl
  | pass => exact hsettles .passed
  | fire =>
    refine ⟨fun hd => (fireCue_declined hd).2, fun hd => ⟨_, applyAction_effect k.id hd, (fireCue_applied hd).2⟩⟩
  | miss =>
    have hmissed : s.actOn n k .miss = (settlesCue n k .missed s).alarmEvent n (Monitor.offer 52) := by
      rw [State.actOn, hsettles]
      rfl
    have hmon : ((settlesCue n k .missed s).alarmEvent n (Monitor.offer 52)).screens[n].mon = (s.screens[n].mon.offer 52).summarise := by
      rw [alarmEvent_mon]
      refine congrArg (fun m : Monitor => (m.offer 52).summarise) (modScreen_mon ?_)
      rfl
    rw [hmissed]
    refine ⟨?_, ?_, (heard_alarmEvent s n (fun x => { x with cues := x.cues.map fun c =>
      if c.id = k.id then { c with state := .missed, outcome := none } else c }) (Monitor.offer 52)).2.2⟩
    · rw [hmon, alarmEvent_eq]
      have hunit : (settlesCue n k .missed s).modMon n (fun m => (m.offer 52).summarise) =
          (settlesCue n k .missed s).modMon n fun _ => (s.screens[n].mon.offer 52).summarise := by
        refine modScreen_congr ?_
        rw [settlesCue, State.modCues_eq, modScreen_at]
      rw [hunit]
    · rw [hmon]
      exact offer_occurrenceOf 52 _

/-- A pass that meets each cue as it stood is the statements' pass, in list order (R138 to R141). -/
theorem cuePass_forEach (l : List Cue) (hd : (l.map (·.id)).Nodup) (v : State) (hf : ∀ k ∈ l, findCue k.id v.screens[n].cues = some k) :
    CuePass n fate l v (forEach (l.map (·.id)) (State.handleCue fate n) v) := by
  induction l generalizing v with
  | nil => rfl
  | cons k rest ih =>
    rw [List.map_cons, List.nodup_cons] at hd
    obtain ⟨hk, hd⟩ := hd
    have hacted : State.handleCue fate n k.id v = v.actOn n k (fate k) := handleCue_found (hf k List.mem_cons_self) fate
    have hpass := ih hd (v.actOn n k (fate k)) fun c hc =>
      actOn_findCue k _ (fun h => hk (h ▸ List.mem_map_of_mem hc)) (hf c (List.mem_cons_of_mem k hc))
    refine ⟨v.actOn n k (fate k), actOn_fate fate v k, ?_⟩
    rw [← hacted] at hpass ⊢
    exact hpass

theorem passCues_cuePass {s : State} (hd : (s.screens[n].cues.map (·.id)).Nodup) :
    CuePass n fate s.screens[n].cues s (s.passCues fate n) :=
  cuePass_forEach fate _ hd s fun _ hk => findCue_mem hd hk

/-- What a pass leaves of the cue list: each cue settled by its fate (R138 to R141). -/
theorem forEach_handleCue_cues (l : List Cue) (hd : (l.map (·.id)).Nodup) (v : State) (hv : (v.screens[n].cues.map (·.id)).Nodup)
    (hf : ∀ k ∈ l, findCue k.id v.screens[n].cues = some k) : ∃ outcome : Nat → CueOutcome,
    (forEach (l.map (·.id)) (State.handleCue fate n) v).screens[n].cues = v.screens[n].cues.map fun c =>
      if c.id ∈ l.map (·.id) then c.settled (fate c) (outcome c.id) else c := by
  induction l generalizing v with
  | nil => exact ⟨fun _ => .applied, by simp [forEach]⟩
  | cons k rest ih =>
    rw [List.map_cons, List.nodup_cons] at hd
    obtain ⟨hk, hd⟩ := hd
    have hacted : State.handleCue fate n k.id v = v.actOn n k (fate k) := handleCue_found (hf k List.mem_cons_self) fate
    obtain ⟨first, hfirst⟩ := actOn_cues v n k (fate k)
    have hids : ((v.actOn n k (fate k)).screens[n].cues.map (·.id)) = v.screens[n].cues.map (·.id) := by
      rw [hfirst, List.map_map]
      refine List.map_congr_left fun c _ => ?_
      simp only [Function.comp_apply]
      split
      · exact settled_id _ _ c
      · rfl
    obtain ⟨outcome, hrest⟩ := ih hd (v.actOn n k (fate k)) (by rw [hids]; exact hv) fun c hc =>
      actOn_findCue k _ (fun h => hk (h ▸ List.mem_map_of_mem hc)) (hf c (List.mem_cons_of_mem k hc))
    refine ⟨fun i => if i = k.id then first else outcome i, ?_⟩
    have hrun : forEach ((k :: rest).map (·.id)) (State.handleCue fate n) v =
        forEach (rest.map (·.id)) (State.handleCue fate n) (v.actOn n k (fate k)) := by
      rw [← hacted]
      rfl
    rw [hrun, hrest, hfirst, List.map_map]
    refine List.map_congr_left fun c hc => ?_
    simp only [Function.comp_apply, List.map_cons, List.mem_cons]
    by_cases hck : c.id = k.id
    · obtain rfl : c = k := Option.some.inj ((findCue_mem hv hc).symm.trans (hck ▸ hf k List.mem_cons_self))
      simp only [if_true, settled_id, hk, if_false, true_or]
    · simp only [hck, if_false, false_or]

theorem passCues_cues {s : State} (hd : (s.screens[n].cues.map (·.id)).Nodup) : ∃ outcome : Nat → CueOutcome,
    (s.passCues fate n).screens[n].cues = s.screens[n].cues.map fun c => c.settled (fate c) (outcome c.id) := by
  obtain ⟨outcome, hcues⟩ := forEach_handleCue_cues fate s.screens[n].cues hd s hd fun _ hk => findCue_mem hd hk
  refine ⟨outcome, hcues.trans (List.map_congr_left fun c hc => if_pos (List.mem_map_of_mem hc))⟩

end

/-! ### The fates of the statements -/

section
variable {u : Update} {k : Cue}

theorem eligible_iff : k.eligible u.program = true ↔ Eligible u k := by
  simp [Cue.eligible, Eligible]

theorem fateAtStep_atStep (u : Update) (k : Cue) : AtStep u k (fateAtStep u.program u.position k) := by
  rw [AtStep, ← eligible_iff]
  exact ⟨fun h => if_pos h, fun h => if_neg h⟩

theorem fateAtJump_atJump (window : Nat) (u : Update) (k : Cue) : AtJump window u k (fateAtJump window u.program u.position k) := by
  rw [AtJump, ← eligible_iff]
  refine ⟨fun h => if_neg h, fun h hdue => ?_, fun h hdue => ⟨fun hahead => ?_, fun hbehind hcatch => ?_, fun hbehind hcatch =>
    ⟨fun hlate => ?_, fun hlate => ?_⟩⟩⟩ <;> refine (if_pos h).trans ?_
  · exact if_pos hdue
  · exact (if_neg (by rw [hdue]; decide)).trans (if_pos (Nat.not_le.1 hahead))
  · exact (if_neg (by rw [hdue]; decide)).trans ((if_neg (Nat.not_lt.2 hbehind)).trans (if_neg (by rw [hcatch]; decide)))
  · exact (if_neg (by rw [hdue]; decide)).trans ((if_neg (Nat.not_lt.2 hbehind)).trans ((if_pos hcatch).trans (if_pos hlate)))
  · exact (if_neg (by rw [hdue]; decide)).trans ((if_neg (Nat.not_lt.2 hbehind)).trans ((if_pos hcatch).trans
      (if_neg (Nat.not_le.2 hlate))))

theorem rearmAhead_rearmed (u : Update) (k : Cue) : Rearmed u k (rearmAhead u.program u.position k) := by
  rw [Rearmed, ← eligible_iff]
  exact ⟨fun h => if_pos h, fun h => if_neg h⟩

theorem rearmAhead_id (program position : Long) (k : Cue) : (rearmAhead program position k).id = k.id := by
  unfold rearmAhead
  split <;> rfl

theorem clearLoadDue_markCleared (u : Update) (k : Cue) : MarkCleared u k (clearLoadDue u.program k) := by
  rw [MarkCleared, ← eligible_iff]
  exact ⟨fun h => if_pos h, fun h => if_neg h⟩

/-- A list mapped through a function becomes another, cue by cue. -/
theorem cuewise_map {P : Cue → Cue → Prop} {g : Cue → Cue} (h : ∀ k, P k (g k)) (l : List Cue) : Cuewise P l (l.map g) := by
  refine ⟨List.length_map .., fun i k k' hk hk' => ?_⟩
  rw [List.getElem?_map, hk, Option.map_some, Option.some.injEq] at hk'
  exact hk' ▸ h k

end

/-! ### An update that is handled -/

section
variable {s : State} {n : Fin 8} {u : Update}

/-- The classification of an update (R57). -/
theorem classifyUpdate_newProgram {program lastPosition : Option Long} {c p : Long}
    (h : lastPosition = none ∨ program ≠ some c) : classifyUpdate program lastPosition c p = .newProgram := by
  unfold classifyUpdate
  split
  · next a b => exact if_pos (h.resolve_left (Option.some_ne_none b) |>.imp fun e => by rw [e])
  · rfl

theorem classifyUpdate_known {q program position : Long} : classifyUpdate (some program) (some q) program position =
    if position.toNat = q.toNat + 1 then .single else if position.toNat > q.toNat + 1 then .forward else .backward :=
  if_neg (not_not_intro rfl)

/-- A change of the cue list by what it becomes. -/
theorem modCues_const (s : State) (n : Fin 8) (f : List Cue → List Cue) : s.modCues n f = s.modCues n fun _ => f s.screens[n].cues := by
  unfold State.modCues
  exact modScreen_congr rfl

/-- The passes that a classification chooses, then the clearing of the load-due marks (R138 to R141). -/
theorem handled_of_pass {fate : Cue → CueFate} {first t : State} (hd : (first.screens[n].cues.map (·.id)).Nodup)
    (hknown : ∀ q, ¬(s.screens[n].ctx.lastPosition = none ∨ s.screens[n].ctx.lastProgram ≠ some u.program) →
      s.screens[n].ctx.lastPosition = some q →
      (u.position.toNat = q.toNat + 1 → (∀ k ∈ s.screens[n].cues, AtStep u k (fate k)) ∧ first = s) ∧
      (q.toNat + 1 < u.position.toNat →
        (∀ k ∈ s.screens[n].cues, AtJump s.screens[n].ctx.window u k (fate k)) ∧ first = s) ∧
      (u.position.toNat ≤ q.toNat → ∃ l', Cuewise (Rearmed u) s.screens[n].cues l' ∧ (∀ k ∈ l', AtStep u k (fate k)) ∧
        first = s.modCues n fun _ => l'))
    (hnew : s.screens[n].ctx.lastPosition = none ∨ s.screens[n].ctx.lastProgram ≠ some u.program →
      (∀ k ∈ s.screens[n].cues, AtJump s.screens[n].ctx.window u k (fate k)) ∧ first = s)
    (ht : t = (first.passCues fate n).modCues n (List.map (clearLoadDue u.program))) :
    HandledUpdate n u s (t.modCtx n (withUpdate u)) := by
  refine ⟨fate, first, first.passCues fate n, (first.passCues fate n).screens[n].cues.map (clearLoadDue u.program), hknown, hnew,
    passCues_cuePass fate hd, cuewise_map (clearLoadDue_markCleared u) _, ?_⟩
  rw [ht, modCues_const]

/-- The cue engine's handling of an update, with what the screen takes of it (R56, R57, R138 to R141). -/
theorem handleUpdate_handled (hd : (s.screens[n].cues.map (·.id)).Nodup) :
    HandledUpdate n u s ((s.handleUpdate n (classifyUpdate s.screens[n].ctx.lastProgram s.screens[n].ctx.lastPosition u.program
      u.position) u.program u.position).modCtx n (withUpdate u)) := by
  by_cases hnew : s.screens[n].ctx.lastPosition = none ∨ s.screens[n].ctx.lastProgram ≠ some u.program
  · rw [classifyUpdate_newProgram hnew]
    exact handled_of_pass (first := s) hd (fun q hold => absurd hnew hold) (fun _ => ⟨fun k _ => fateAtJump_atJump _ u k, rfl⟩) rfl
  · obtain ⟨hposition, hprogram⟩ := not_or.1 hnew
    obtain ⟨q, hq⟩ := Option.ne_none_iff_exists'.1 hposition
    rw [hq, not_not.1 hprogram, classifyUpdate_known]
    by_cases hstep : u.position.toNat = q.toNat + 1
    · rw [if_pos hstep]
      refine handled_of_pass (first := s) hd (fun q' _ hq' => ?_) (fun h => absurd h hnew) rfl
      obtain rfl : q = q' := Option.some.inj (hq.symm.trans hq')
      exact ⟨fun _ => ⟨fun k _ => fateAtStep_atStep u k, rfl⟩, fun h => by omega, fun h => by omega⟩
    · rw [if_neg hstep]
      by_cases hjump : u.position.toNat > q.toNat + 1
      · rw [if_pos hjump]
        refine handled_of_pass (first := s) hd (fun q' _ hq' => ?_) (fun h => absurd h hnew) rfl
        obtain rfl : q = q' := Option.some.inj (hq.symm.trans hq')
        exact ⟨fun h => absurd h hstep, fun _ => ⟨fun k _ => fateAtJump_atJump _ u k, rfl⟩, fun h => by omega⟩
      · rw [if_neg hjump]
        refine handled_of_pass (first := s.modCues n (List.map (rearmAhead u.program u.position))) ?_ (fun q' _ hq' => ?_)
          (fun h => absurd h hnew) rfl
        · have hids : (s.screens[n].cues.map (rearmAhead u.program u.position)).map (·.id) = s.screens[n].cues.map (·.id) := by
            rw [List.map_map]
            exact List.map_congr_left fun k _ => rearmAhead_id _ _ k
          rw [modCues_cues, hids]
          exact hd
        · obtain rfl : q = q' := Option.some.inj (hq.symm.trans hq')
          exact ⟨fun h => absurd h hstep, fun h => absurd h hjump, fun _ => ⟨_, cuewise_map (rearmAhead_rearmed u) _,
            fun k _ => fateAtStep_atStep u k, modCues_const s n _⟩⟩

/-! ### An update that a screen takes -/

theorem takeUpdate_running (hst : s.screens[n].ctx.state = .running) (hd : (s.screens[n].cues.map (·.id)).Nodup) :
    HandledUpdate n u s (s.takeUpdate n u) := by
  unfold State.takeUpdate
  simp only [hst, if_true]
  exact handleUpdate_handled hd

theorem takeUpdate_idle (hst : s.screens[n].ctx.state ≠ .running) : s.takeUpdate n u = s.modCtx n (withUpdate u) := by
  unfold State.takeUpdate
  simp only [hst, if_false]
  rfl

/-- A screen that is stopped by follow-source is then in STANDBY (R47, R48). -/
theorem enterStandby_stopped (hst : s.screens[n].ctx.state = .running) : Stopped n s (s.enterStandby n) ∧
    (s.enterStandby n).screens[n].ctx.state = .standby := by
  obtain ⟨-, -, hscreen⟩ := heard_enterStandby hst
  refine ⟨?_, by rw [hscreen]⟩
  rw [enterStandby_running hst]
  exact silentStops_clearsAlarms (modScreen_mon rfl)

/-- The follow-source transition of an update (R48). -/
theorem followUpdate_starts (hst : s.screens[n].ctx.state = .standby) (hf : s.screens[n].ctx.follow = true) :
    s.followUpdate n true = s.modCtx n (entersRunning s) := (if_pos ⟨hf, hst, rfl⟩).trans (enterRunning_standby hst)

theorem followUpdate_stops (hst : s.screens[n].ctx.state = .running) (hf : s.screens[n].ctx.follow = true) :
    s.followUpdate n false = s.enterStandby n := (if_neg fun h => nomatch h.2.2).trans (if_pos ⟨hf, hst, rfl⟩)

theorem followUpdate_stays {play : Bool} (hstart : s.screens[n].ctx.state = .standby → ¬(s.screens[n].ctx.follow = true ∧ play = true))
    (hstop : s.screens[n].ctx.state = .running → ¬(s.screens[n].ctx.follow = true ∧ play = false)) : s.followUpdate n play = s :=
  (if_neg fun h => hstart h.2.1 ⟨h.1, h.2.2⟩).trans (if_neg fun h => hstop h.2.1 ⟨h.1, h.2.2⟩)

/-- A position update reaches the screen that has the port in use (R48, R54, R56). -/
theorem hearUpdate_takes {p : Fin 12} (ha : s.screens[n].ctx.activePort = some p) (hd : (s.screens[n].cues.map (·.id)).Nodup) :
    TakesUpdate n u s (State.hearUpdate p u n s) := by
  have hheard (hst : s.screens[n].ctx.state ≠ .dark) : State.hearUpdate p u n s = (s.followUpdate n u.play).takeUpdate n u :=
    if_pos ⟨ha, hst⟩
  refine ⟨fun hst => if_neg fun h => h.2 hst, fun hst hno => ?_, fun hst hf hplay => ?_, fun hst hf hplay => ?_, fun hst hno => ?_⟩
  · rw [hheard (by rw [hst]; decide), followUpdate_stays (fun _ => hno) (fun h => by rw [hst] at h; cases h),
      takeUpdate_idle (by rw [hst]; decide)]
  · rw [hheard (by rw [hst]; decide), hplay, followUpdate_starts hst hf]
    have hstarted := modScreen_at s n fun x => { x with ctx := entersRunning s x.ctx }
    refine takeUpdate_running ?_ ?_ <;> rw [State.modCtx_eq, hstarted]
    · rfl
    · exact hd
  · rw [hheard (by rw [hst]; decide), hplay, followUpdate_stops hst hf]
    obtain ⟨hstopped, hstandby⟩ := enterStandby_stopped hst
    exact ⟨_, hstopped, takeUpdate_idle (by rw [hstandby]; decide)⟩
  · rw [hheard (by rw [hst]; decide), followUpdate_stays (fun h => by rw [hst] at h; cases h) (fun _ => hno)]
    exact takeUpdate_running hst hd

end

end Sys2Proof.Machine
end

-- Proofs/Descriptors: completed descriptors and the screen that hears of them (O38, O39, O40)
section
/-! The frame that completes a descriptor attempt does its link work, and then the descriptor is judged (`exec_goodDescriptor`,
`exec_badAttempt`). A good one with a position and a bad one with a base raise a position update; the others raise position lost.
One screen hears of it (`raiseUpdate_takes`, `raiseLost_some`) (R14 to R16, R48, R54, R56, R58). -/

namespace Sys2Proof.Machine

/-! ### What one screen hears -/

section
variable {s : State} {p : Fin 12} {n : Fin 8}

/-- An update that one screen hears is raised to it alone (R49, R56). -/
theorem raiseUpdate_single (ha : ∀ m : Fin 8, s.screens[m].ctx.activePort = some p ↔ m = n) (u : Update) :
    s.raiseUpdate p u = State.hearUpdate p u n s :=
  forScreens_single (onScreen_hearUpdate p u) fun m _ hm ht => if_neg fun h => hm ((ha m).1 (ht ▸ h.1))

theorem raiseUpdate_takes (ha : ∀ m : Fin 8, s.screens[m].ctx.activePort = some p ↔ m = n) {u : Update}
    (hd : (s.screens[n].cues.map (·.id)).Nodup) : TakesUpdate n u s (s.raiseUpdate p u) := by
  rw [raiseUpdate_single ha]
  exact hearUpdate_takes ((ha n).2 rfl) hd

/-- Position lost that one screen hears is raised to it alone (R49, R58). -/
theorem raiseLost_single (ha : ∀ m : Fin 8, s.screens[m].ctx.activePort = some p ↔ m = n) (fields : Option LostFields) :
    s.raiseLost p fields = State.hearLost p fields n s :=
  forScreens_single (onScreen_hearLost p fields) fun m _ hm ht => if_neg fun h => hm ((ha m).1 (ht ▸ h.1))

/-- Position lost with no fields sets the screen's flag, but in DARK (R58). -/
theorem raiseLost_none (ha : ∀ m : Fin 8, s.screens[m].ctx.activePort = some p ↔ m = n) : s.raiseLost p none =
    if s.screens[n].ctx.state = .dark then s else s.modCtx n fun c => { c with positionLost := true } := by
  rw [raiseLost_single ha]
  by_cases hst : s.screens[n].ctx.state = .dark
  · rw [if_pos hst]
    exact if_neg fun h => h.2 hst
  · rw [if_neg hst]
    exact if_pos ⟨(ha n).2 rfl, hst⟩

/-- Position lost with fields: the tag is taken and the flag set, after a stop by follow-source; a DARK screen takes nothing (R48,
R54, R58, assumption log 32). -/
theorem raiseLost_some (ha : ∀ m : Fin 8, s.screens[m].ctx.activePort = some p ↔ m = n) (f : LostFields) :
    let c := s.screens[n].ctx
    let lost (c : Context) : Context := { c with positionLost := true, descTag := some f.tag }
    (c.state = .dark → s.raiseLost p (some f) = s) ∧
    (c.state = .running → c.follow = true → f.play = false → s.raiseLost p (some f) = (s.enterStandby n).modCtx n lost) ∧
    (c.state ≠ .dark → ¬(c.state = .running ∧ c.follow = true ∧ f.play = false) → s.raiseLost p (some f) = s.modCtx n lost) := by
  rw [raiseLost_single ha]
  refine ⟨fun hst => if_neg fun h => h.2 hst, fun hst hf hplay => ?_, fun hst hno => ?_⟩
  · refine (if_pos ⟨(ha n).2 rfl, by rw [hst]; decide⟩).trans ?_
    exact congrArg (State.modCtx · n _) (if_pos ⟨hf, hst, hplay⟩)
  · refine (if_pos ⟨(ha n).2 rfl, hst⟩).trans ?_
    exact congrArg (State.modCtx · n _) (if_neg fun h => hno ⟨h.2.1, h.1, h.2.2⟩)

/-- Screens that are as another state has them hear what they would hear there. -/
theorem raiseUpdate_screens {t : State} (ht : t.screens = s.screens) (ha : ∀ m : Fin 8, s.screens[m].ctx.activePort = some p ↔ m = n)
    (hd : (s.screens[n].cues.map (·.id)).Nodup) (u : Update) : TakesUpdate n u t (t.raiseUpdate p u) :=
  raiseUpdate_takes (by rw [ht]; exact ha) (by rw [ht]; exact hd)

theorem raiseLost_screens {t : State} (ht : t.screens = s.screens) (ha : ∀ m : Fin 8, s.screens[m].ctx.activePort = some p ↔ m = n) :
    t.raiseLost p none = if s.screens[n].ctx.state = .dark then t else t.modCtx n fun c => { c with positionLost := true } := by
  rw [raiseLost_none (by rw [ht]; exact ha), ht]

end

/-! ### Bytes of an attempt -/

theorem allKnown_unknown {α : Type} (l : List (Option α)) : allKnown (l ++ [none]) = none :=
  allKnown_eq_none.2 (List.mem_append_right _ (List.mem_singleton.2 rfl))

/-- The place of the first unknown byte does not depend on a known last one (R14). -/
theorem firstUnknown_known (l : List (Option Byte)) (b : Byte) : firstUnknown (l ++ [some b]) = firstUnknown l := by
  simp [firstUnknown, List.findIdx?_append]

/-- A last byte that is unknown is the first unknown one, where the others are known (R14). -/
theorem firstUnknown_unknown (l : List (Option Byte)) (hl : l.length = 11) :
    (firstUnknown (l ++ [none])).getD 11 = (firstUnknown l).getD 11 := by
  unfold firstUnknown
  rw [List.findIdx?_append]
  cases List.findIdx? Option.isNone l <;> simp [hl]

/-! ### Frames that complete an attempt -/

section
variable {s : State} {p : Fin 12} {f : LinkFrame 16} {cls : FrameClass} {bytes : List (Option Byte)} {y : Port}

/-- The twelfth arrival of an attempt at a port that stays LOCKED (R14). -/
theorem frameWork_completes (hl : s.ports[p].state = .locked) (he : s.ports[p].expected = some 11) (hc : cls ≠ .misplaced) {next : Nat}
    (hnext : nextExpected (some 11) cls (headerIndex f.header) = some next) {index : Option Nat}
    (hindex : errorIndex cls (some 11) (headerIndex f.header) (Config.freeIndex s.freeCount) = index)
    (ht : (s.modPort p (Port.ran cls next)).takeLocked p cls f.slots index = s.modPort p fun _ => y) (hstate : y.state = .locked)
    (hattempt : y.attempt = some bytes) : s.frameWork p f cls =
      (s.modPort p fun _ => { y with attempt := none }).completeDescriptor p (bytes ++ [byteOf cls (headerByte f.header)]) 11
        false := by
  have hport : (s.modPort p fun _ => y).ports[p] = y := modPort_at s p _
  rw [frameWork_locked hl he hnext hindex ht, if_pos (by rw [hport, hstate]),
    takeHeaderByte_some cls _ ((if_neg (by decide)).trans (by rw [hport, hattempt])), if_neg (by decide), if_neg hc, if_pos rfl,
    modPort_modPort]

/-- The last byte of an attempt, in a GOOD frame (R3, R14). -/
theorem frameWork_lastByte (h : LastByteArrives f bytes s.ports[p]) : s.frameWork p f .good =
    (s.modPort p (afterLastByte f)).completeDescriptor p (bytes ++ [some (headerByte f.header)]) 11 false := by
  obtain ⟨hl, he, hf, -, hroom, -, hattempt⟩ := h
  have hnext : nextExpected (some 11) .good (headerIndex f.header) = some 12 := by rw [hf.2.2]; rfl
  have hfull : ¬32 ≤ s.ports[p].buffer.length := by omega
  have hwork := (takeLocked_good (s := s) (p := p) (next := 12) (index := some (headerIndex f.header)) f.slots).1 hroom
  rw [frameWork_completes hl he (by decide) hnext rfl hwork hl hattempt]
  refine congrArg (State.completeDescriptor · p _ 11 false) (modPort_congr ?_)
  simp only [buffered, hfull, if_false]
  rfl

theorem goodDescriptor_of_bytes {t : State} {known : List Byte} {b : Byte} {u : Update} (hu : parseDescriptor (known ++ [b]) = some u) :
    t.completeDescriptor p (known.map some ++ [some b]) 11 false = t.goodDescriptor p u := by
  have hknown : allKnown (known.map some ++ [some b]) = some (known ++ [b]) := by
    rw [allKnown_eq_some]
    simp
  simp only [State.completeDescriptor, hknown, Option.bind_some, hu, Bool.false_eq_true, if_false]

/-- The frame of a good descriptor (R14, R15). -/
theorem exec_goodDescriptor {n : Fin 8} {u : Update} (hp : s.powered = true) (h : GoodDescriptor p n f u s) :
    exec (.programFrameArrival p f) s = .next ((s.modPort p (afterLastByte f)).goodDescriptor p u) := by
  obtain ⟨⟨known, hlast, hu⟩, -⟩ := h
  have hst : s.ports[p].state ≠ .down := by rw [hlast.1]; decide
  rw [exec_frame_plain hp hst (classify_good hlast.2.2.1 (.inl hlast.2.1)) (.inl ⟨.inl rfl, hlast.2.2.2.1⟩), frameWork_lastByte hlast,
    goodDescriptor_of_bytes hu]

/-- A bad descriptor by its bytes (R14). -/
theorem badDescriptor_of_bytes {t : State} (h : (allKnown bytes).bind parseDescriptor = none) :
    t.completeDescriptor p bytes 11 false = t.badDescriptor p (some ((firstUnknown bytes).getD 11)) := by
  simp only [State.completeDescriptor, h, Bool.false_eq_true, if_false]

/-- A last byte that leaves an unknown byte or a bad check (R14). -/
theorem parse_fails {b : Byte} (h : ∀ known : List Byte, bytes = known.map some → parseDescriptor (known ++ [b]) = none) :
    (allKnown (bytes ++ [some b])).bind parseDescriptor = none := by
  cases hknown : allKnown (bytes ++ [some b]) with
  | none => rfl
  | some l =>
    obtain ⟨known, last, rfl, hbytes, hlast⟩ := List.map_eq_append_iff.1 (allKnown_eq_some.1 hknown).symm
    obtain rfl : last = [b] := List.map_injective_iff.2 (Option.some_injective _) hlast
    exact h known hbytes.symm

/-- A last byte that is unknown makes the attempt a bad descriptor (R14). -/
theorem frameWork_lastUnknown (hl : s.ports[p].state = .locked) (he : s.ports[p].expected = some 11)
    (hc : cls = .checkError ∨ cls = .stop ∨ cls = .miss) (hlen : bytes.length = 11) {index : Option Nat}
    (hindex : errorIndex cls (some 11) (headerIndex f.header) (Config.freeIndex s.freeCount) = index)
    (ht : (s.modPort p (Port.ran cls 12)).takeLocked p cls f.slots index = s.modPort p fun _ => y) (hstate : y.state = .locked)
    (hattempt : y.attempt = some bytes) : s.frameWork p f cls =
      (s.modPort p fun _ => { y with attempt := none }).badDescriptor p (some ((bytes.findIdx? Option.isNone).getD 11)) := by
  have hclass : cls ≠ .misplaced ∧ nextExpected (some 11) cls (headerIndex f.header) = some 12 ∧
      byteOf cls (headerByte f.header) = none := by
    rcases hc with rfl | rfl | rfl <;> exact ⟨by decide, rfl, rfl⟩
  obtain ⟨hmis, hnext, hbyte⟩ := hclass
  rw [frameWork_completes hl he hmis hnext hindex ht hstate hattempt, hbyte,
    badDescriptor_of_bytes (by rw [allKnown_unknown]; rfl), firstUnknown_unknown bytes hlen]
  rfl

/-- A MISPLACED frame breaks an attempt off (R14). -/
theorem frameWork_misplaced {e k : Nat} (hl : s.ports[p].state = .locked) (he : s.ports[p].expected = some e) (hearly : e ≤ 11)
    (hf : GoodFrame f k) (hmiss : s.ports[p].missRun ≤ 1) (hbytes : if e = 0 then bytes = [] else s.ports[p].attempt = some bytes) :
    s.frameWork p f .misplaced = (s.modPort p fun _ =>
      { afterMiss k ((k + 1) % 48) s.blockCounter s.ports[p] with attempt := none }).badDescriptor p
        (some ((bytes.findIdx? Option.isNone).getD e)) := by
  have hport := modPort_at s p (afterMiss k ((k + 1) % 48) s.blockCounter)
  have hunder : (if e = 0 then some [] else (s.modPort p (afterMiss k ((k + 1) % 48) s.blockCounter)).ports[p].attempt) = some bytes := by
    rw [hport]
    split at hbytes
    · next h0 => rw [if_pos h0, hbytes]
    · next h0 =>
      rw [if_neg h0]
      exact hbytes
  have hindex : errorIndex .misplaced (some e) (headerIndex f.header) (Config.freeIndex s.freeCount) = some k := congrArg some hf.2.2
  have hnext : nextExpected (some e) .misplaced (headerIndex f.header) = some ((k + 1) % 48) := by rw [hf.2.2]; rfl
  rw [frameWork_missed hl he (.inr rfl) hnext hindex hmiss, takeHeaderByte_some _ _ hunder, if_neg (by omega), if_pos rfl,
    modPort_modPort]
  have hsame : s.modPort p (fun x => { afterMiss k ((k + 1) % 48) s.blockCounter x with attempt := none }) = s.modPort p fun _ =>
      { afterMiss k ((k + 1) % 48) s.blockCounter s.ports[p] with attempt := none } := modPort_congr rfl
  rw [hsame]
  rfl

/-- The frame of a bad descriptor does its link work, and then the descriptor is judged bad (R14, assumption log 20). -/
theorem exec_badAttempt {i : Nat} (hp : s.powered = true) (h : BadAttempt f s.blockCounter s.ports[p] i y) :
    exec (.programFrameArrival p f) s = .next ((s.modPort p fun _ => y).badDescriptor p (some i)) := by
  rcases h with ⟨bytes, hlast, hbad, rfl, rfl⟩ | ⟨bytes, hl, he, hattempt, hlen, hroom, rfl, h⟩ |
    ⟨e, k, bytes, hl, he, hearly, hf, hne, ha, hmiss, hbytes, rfl, rfl⟩
  · have hst : s.ports[p].state ≠ .down := by rw [hlast.1]; decide
    have hsame : s.modPort p (afterLastByte f) = s.modPort p fun _ => afterLastByte f s.ports[p] := modPort_congr rfl
    rw [exec_frame_plain hp hst (classify_good hlast.2.2.1 (.inl hlast.2.1)) (.inl ⟨.inl rfl, hlast.2.2.2.1⟩), frameWork_lastByte hlast,
      badDescriptor_of_bytes (parse_fails hbad), firstUnknown_known, hsame]
    rfl
  · have hst : s.ports[p].state ≠ .down := by rw [hl]; decide
    rcases h with ⟨hf, ha, hdrop, rfl⟩ | ⟨hf, hcode, hrun, rfl⟩ | ⟨hf, ha, hmiss, rfl⟩
    · rw [exec_frame_plain hp hst (classify_badCheck hf) (.inr ⟨.inl rfl, ha⟩)]
      exact congrArg _ (frameWork_lastUnknown hl he (.inl rfl) hlen rfl ((takeLocked_checkError f.slots hdrop).1 hroom) hl hattempt)
    · rw [exec_frame_plain hp hst (classify_stop hf) (.inl ⟨.inr rfl, hcode⟩)]
      exact congrArg _ (frameWork_lastUnknown hl he (.inr (.inl rfl)) hlen rfl ((takeLocked_stop f.slots hrun).1 hroom) hl hattempt)
    · have hwork : (s.modPort p (Port.ran .miss 12)).takeLocked p .miss f.slots (some 11) = s.modPort p fun _ =>
          afterMiss 11 12 s.blockCounter s.ports[p] := (takeLocked_missed (.inl rfl) f.slots hmiss).trans (modPort_congr rfl)
      rw [exec_frame_plain hp hst (classify_miss (e := 0) (.inl hf)) (.inr ⟨.inr (.inl rfl), ha⟩)]
      have hindex : errorIndex .miss (some 11) (headerIndex f.header) (Config.freeIndex s.freeCount) = some 11 := rfl
      exact congrArg _ (frameWork_lastUnknown hl he (.inr (.inr rfl)) hlen hindex hwork hl hattempt)
  · have hst : s.ports[p].state ≠ .down := by rw [hl]; decide
    rw [exec_frame_plain hp hst (classify_misplaced hf he hne) (.inr ⟨.inr (.inr rfl), ha⟩)]
    exact congrArg _ (frameWork_misplaced hl he hearly hf hmiss hbytes)

end

/-! ### What a descriptor raises -/

section
variable {s : State} {p : Fin 12} {n : Fin 8} {u : Update}

/-- A good descriptor with a position (R15). -/
theorem goodDescriptor_position (k : Port → Port) (hu : u.posValid = true) : (s.modPort p k).goodDescriptor p u =
    (s.modPort p fun x => { k x with base := some u, badRun := 0, lastGood := some u.position, lostRaised := false }).raiseUpdate p u := by
  refine (if_pos hu).trans ?_
  rw [modPort_modPort]

/-- A good descriptor without one (R15). -/
theorem goodDescriptor_noPosition (k : Port → Port) (hu : u.posValid = false) : (s.modPort p k).goodDescriptor p u =
    (s.modPort p fun x => { k x with base := none, badRun := 0, lostRaised := true }).raiseLost p
      (some { program := u.program, tag := u.tag, play := u.play, posValid := u.posValid }) := by
  refine (if_neg (by rw [hu]; decide)).trans ?_
  rw [modPort_modPort]

/-- A port with a bad descriptor captured and its run lengthened (R16, R21). -/
def Port.badNoted (i : Nat) (counter : Long) (y : Port) : Port :=
  { y with badRun := min 9 (y.badRun + 1), capture := offered y .descriptor (some i) counter }

/-- The position that follows a base's (R16, assumption log 7). -/
theorem inferredPosition_eq (position free : Long) :
    inferredPosition position free = if position.toNat = 2 ^ 32 - 1 then free else position + 1 := by
  have hlast : position = BitVec.allOnes 32 ↔ position.toNat = 2 ^ 32 - 1 := by
    rw [← BitVec.toNat_inj, BitVec.toNat_allOnes]
  simp only [inferredPosition, hlast]

section
variable {y : Port} {i : Nat}

/-- A bad descriptor is captured and counted, and then raises what its base and its run give (R16). -/
theorem badDescriptor_eq : (s.modPort p fun _ => y).badDescriptor p (some i) =
    let t := s.modPort p fun _ => y.badNoted i s.blockCounter
    match (generalizing := false) y.base with
    | some b =>
      if min 9 (y.badRun + 1) ≤ 8 then
        let u : Update := { b with position := inferredPosition b.position (Config.freePosition s.freeCount), inferred := true }
        ({ t with freeCount := s.freeCount + 1 }.modPort p fun x => { x with base := some u }).raiseUpdate p u
      else (t.modPort p fun x => { x with base := none, lostRaised := true }).raiseLost p none
    | none => if y.lostRaised then t else (t.modPort p fun x => { x with lostRaised := true }).raiseLost p none := by
  have hnoted : (((s.modPort p fun _ => y).offerError p .descriptor (some i) s.blockCounter).modPort p fun x =>
      { x with badRun := min 9 (x.badRun + 1) }) = s.modPort p fun _ => y.badNoted i s.blockCounter := by
    rw [State.offerError, modPort_modPort, modPort_modPort]
    refine modPort_congr ?_
    rw [capturing_eq]
    rfl
  have hport := modPort_at s p fun _ => y.badNoted i s.blockCounter
  unfold State.badDescriptor
  simp only [State.modPort_blockCounter, hnoted, hport] <;> rfl

theorem badDescriptor_infers {b : Update} (hb : y.base = some b) (hrun : y.badRun ≤ 7) :
    let u : Update := { b with
      position := if b.position.toNat = 2 ^ 32 - 1 then Config.freePosition s.freeCount else b.position + 1, inferred := true }
    (s.modPort p fun _ => y).badDescriptor p (some i) =
      State.raiseUpdate { s.modPort p fun _ => { y.badNoted i s.blockCounter with base := some u } with
        freeCount := s.freeCount + 1 } p u := by
  intro u
  have hbase (t : State) (free : Nat) : ({ t.modPort p fun _ => y.badNoted i s.blockCounter with freeCount := free }.modPort p
      fun x => { x with base := some u }) =
        { t.modPort p fun _ => { y.badNoted i s.blockCounter with base := some u } with freeCount := free } :=
    by simp [State.modPort]
  rw [badDescriptor_eq, hb]
  refine (if_pos (by omega)).trans ?_
  rw [inferredPosition_eq]
  exact congrArg (State.raiseUpdate · p u) (hbase s _)

theorem badDescriptor_loses (h : (y.base.isSome = true ∧ 8 ≤ y.badRun) ∨ (y.base = none ∧ y.lostRaised = false)) :
    (s.modPort p fun _ => y).badDescriptor p (some i) =
      (s.modPort p fun _ => { y.badNoted i s.blockCounter with base := none, lostRaised := true }).raiseLost p none := by
  rw [badDescriptor_eq]
  rcases h with ⟨hbase, hrun⟩ | ⟨hbase, hraised⟩
  · obtain ⟨b, hb⟩ := Option.isSome_iff_exists.1 hbase
    rw [hb]
    refine (if_neg (by omega)).trans ?_
    rw [modPort_modPort]
  · have habsent : ({ y.badNoted i s.blockCounter with lostRaised := true } : Port) =
        { y.badNoted i s.blockCounter with base := none, lostRaised := true } := by
      rw [← hbase]
      rfl
    rw [hbase]
    refine (if_neg (by rw [hraised]; decide)).trans ?_
    rw [modPort_modPort]
    simp only [habsent]

theorem badDescriptor_silent (hb : y.base = none) (hl : y.lostRaised = true) :
    (s.modPort p fun _ => y).badDescriptor p (some i) = s.modPort p fun _ => y.badNoted i s.blockCounter := by
  rw [badDescriptor_eq, hb]
  exact if_pos hl

end
end

/-! ### The frame of a descriptor -/

/-- Settles O39: the frame of a good descriptor, and the screen that takes its update. -/
theorem positionUpdatesReachTheirScreen : Obligations.PositionUpdatesReachTheirScreen := by
  intro p n f u s hp hgood hvalid hsafe
  refine ⟨_, exec_goodDescriptor hp hgood, ?_⟩
  rw [goodDescriptor_position _ hvalid]
  exact raiseUpdate_screens (by rfl) hgood.2 hsafe.2 u

/-- A frame that completes a bad descriptor leaves what the port knows of earlier ones (R14). -/
theorem BadAttempt.memory {f : LinkFrame 16} {counter : Long} {x y : Port} {i : Nat} (h : BadAttempt f counter x i y) :
    y.base = x.base ∧ y.badRun = x.badRun ∧ y.lostRaised = x.lostRaised := by
  rcases h with ⟨_, -, -, -, rfl⟩ | ⟨_, -, -, -, -, -, -, h⟩ | ⟨_, _, _, -, -, -, -, -, -, -, -, -, rfl⟩
  · exact ⟨rfl, rfl, rfl⟩
  · rcases h with ⟨-, -, -, rfl⟩ | ⟨-, -, -, rfl⟩ | ⟨-, -, -, rfl⟩
    · exact ⟨rfl, rfl, rfl⟩
    · exact ⟨rfl, rfl, rfl⟩
    · exact ⟨rfl, rfl, rfl⟩
  · exact ⟨rfl, rfl, rfl⟩

/-- Settles O40: a bad descriptor by its base and its run, and a good one without POSITION-VALID by what its screen does. -/
theorem descriptorsInferOrLosePosition : Obligations.DescriptorsInferOrLosePosition := by
  intro p n f s hp x c goes lose hsafe ha
  refine ⟨fun i y hbad => ?_, fun u hgood hvalid => ?_⟩
  · have hframe := exec_badAttempt hp hbad
    obtain ⟨hbase, hrun, hraised⟩ := hbad.memory
    have hthe : x.base = y.base ∧ x.badRun = y.badRun ∧ x.lostRaised = y.lostRaised := ⟨hbase.symm, hrun.symm, hraised.symm⟩
    simp only [hthe.1, hthe.2.1, hthe.2.2]
    refine ⟨fun b hb hfew => ?_, fun hloses => ?_, fun hb hl => ?_⟩
    · rw [badDescriptor_infers hb hfew] at hframe
      exact ⟨_, hframe, raiseUpdate_screens (by rfl) ha hsafe.2 _⟩
    · rw [badDescriptor_loses hloses] at hframe
      exact hframe.trans (congrArg _ (raiseLost_screens (by rfl) ha))
    · rw [badDescriptor_silent hb hl] at hframe
      exact hframe
  · have hframe := exec_goodDescriptor hp hgood
    rw [goodDescriptor_noPosition _ hvalid] at hframe
    obtain ⟨hdark, hstops, hstays⟩ := raiseLost_some (s := s.modPort p fun x =>
      { afterLastByte f x with base := none, badRun := 0, lostRaised := true }) (p := p) (n := n) ha
      { program := u.program, tag := u.tag, play := u.play, posValid := u.posValid }
    refine ⟨fun hst => ?_, fun hst hf hplay => ?_, fun hst hno => ?_⟩
    · rw [hdark hst] at hframe
      exact hframe
    · rw [hstops hst hf hplay] at hframe
      refine ⟨_, And.left (enterStandby_stopped ?_), hframe⟩
      exact hst
    · rw [hstays hst hno] at hframe
      exact hframe

/-! ### The due cues at a STEP -/

section
variable {s : State} {p : Fin 12} {n : Fin 8} {u : Update} {q : Long}

/-- A STEP at a RUNNING screen that follow-source does not stop: a pass over the cues, the load-due marks cleared, and the update
taken (R56, R57, R138, R141). -/
theorem hearUpdate_step (ha : s.screens[n].ctx.activePort = some p) (hrun : s.screens[n].ctx.state = .running)
    (hfollow : s.screens[n].ctx.follow = true → u.play = true) (hprogram : s.screens[n].ctx.lastProgram = some u.program)
    (hposition : s.screens[n].ctx.lastPosition = some q) (hstep : u.position.toNat = q.toNat + 1) : State.hearUpdate p u n s =
      ((s.passCues (fateAtStep u.program u.position) n).modCues n (List.map (clearLoadDue u.program))).modCtx n (withUpdate u) := by
  have hstays : s.followUpdate n u.play = s := followUpdate_stays (fun h => by rw [hrun] at h; cases h)
    fun _ h => by rw [hfollow h.1] at h; cases h.2
  have hclass : classifyUpdate s.screens[n].ctx.lastProgram s.screens[n].ctx.lastPosition u.program u.position = .single := by
    rw [hprogram, hposition, classifyUpdate_known, if_pos hstep]
  refine (if_pos ⟨ha, by rw [hrun]; decide⟩).trans ?_
  rw [hstays]
  unfold State.takeUpdate
  simp only [hrun, if_true, hclass]
  rfl

/-- What a STEP does to one cue, its load-due mark cleared after it (R138, R141, R142). -/
theorem settled_atStep (u : Update) (k : Cue) (outcome : CueOutcome) :
    let k' := clearLoadDue u.program (k.settled (fateAtStep u.program u.position k) outcome)
    let due := Eligible u k ∧ k.state = .armed ∧ (k.loadDue = true ∨ k.trigger.toNat ≤ u.position.toNat)
    k' = { k with state := k'.state, outcome := k'.outcome, loadDue := k'.loadDue } ∧
    (due → k'.state = .fired ∧ k'.outcome.isSome = true) ∧ (¬due → k'.state = k.state ∧ k'.outcome = k.outcome) ∧
    (Eligible u k → k'.loadDue = false) ∧ (¬Eligible u k → k'.loadDue = k.loadDue) := by
  intro k' due
  obtain ⟨hfires, hleaves⟩ := fateAtStep_atStep u k
  by_cases hdue : due
  · have hk' : k' = clearLoadDue u.program { k with state := .fired, outcome := some outcome, loadDue := false } := by
      simp only [k', hfires hdue]
      rfl
    have hcleared : k' = { k with state := .fired, outcome := some outcome, loadDue := false } :=
      hk'.trans ((clearLoadDue_markCleared u { k with state := .fired, outcome := some outcome, loadDue := false }).1 hdue.1)
    rw [hcleared]
    exact ⟨rfl, fun _ => ⟨rfl, rfl⟩, fun h => absurd hdue h, fun _ => rfl, fun h => absurd hdue.1 h⟩
  · have hk' : k' = clearLoadDue u.program k := by
      simp only [k', hleaves hdue]
      rfl
    obtain ⟨hclear, hkeep⟩ := clearLoadDue_markCleared u k
    by_cases he : Eligible u k
    · rw [hk', hclear he]
      exact ⟨rfl, fun h => absurd h hdue, fun _ => ⟨rfl, rfl⟩, fun _ => rfl, fun h => absurd he h⟩
    · rw [hk', hkeep he]
      exact ⟨rfl, fun h => absurd h hdue, fun _ => ⟨rfl, rfl⟩, fun h => absurd h he, fun _ => rfl⟩

/-- The cue list after a STEP (R138, R141). -/
theorem step_cues (hd : (s.screens[n].cues.map (·.id)).Nodup) : ∃ outcome : Nat → CueOutcome,
    (((s.passCues (fateAtStep u.program u.position) n).modCues n (List.map (clearLoadDue u.program))).modCtx n
      (withUpdate u)).screens[n].cues = s.screens[n].cues.map fun k =>
        clearLoadDue u.program (k.settled (fateAtStep u.program u.position k) (outcome k.id)) := by
  obtain ⟨outcome, hpass⟩ := passCues_cues (fateAtStep u.program u.position) hd
  refine ⟨outcome, ?_⟩
  rw [State.modCtx_eq, modScreen_at, State.modCues_eq, modScreen_at]
  simp only [hpass, List.map_map]
  rfl

/-- What a screen takes of an update at a STEP, and what its cues become (R54, R56, R138, R141, R142). -/
theorem hearUpdate_atStep (ha : s.screens[n].ctx.activePort = some p) (hrun : s.screens[n].ctx.state = .running)
    (hfollow : s.screens[n].ctx.follow = true → u.play = true) (hprogram : s.screens[n].ctx.lastProgram = some u.program)
    (hposition : s.screens[n].ctx.lastPosition = some q) (hstep : u.position.toNat = q.toNat + 1)
    (hd : (s.screens[n].cues.map (·.id)).Nodup) :
    (∃ c, (State.hearUpdate p u n s).screens[n].ctx = withUpdate u c) ∧
    ∃ outcome : Nat → CueOutcome, (State.hearUpdate p u n s).screens[n].cues = s.screens[n].cues.map fun k =>
      clearLoadDue u.program (k.settled (fateAtStep u.program u.position k) (outcome k.id)) := by
  rw [hearUpdate_step ha hrun hfollow hprogram hposition hstep]
  exact ⟨⟨_, by rw [State.modCtx_eq, modScreen_at]⟩, step_cues hd⟩

end

/-- Settles O38: the frame of a good descriptor at a STEP, by the cue list that the pass leaves. -/
theorem positionUpdateFiresTheDueCues : Obligations.PositionUpdateFiresTheDueCues := by
  intro p n f bytes u q s hp x c hl he hf hcode hroom hlen hattempt hparse hvalid ha hrun hfollow hprogram hposition hstep hsafe
    eligible due
  have hgood : GoodDescriptor p n f u s := ⟨⟨bytes, ⟨hl, he, hf, hcode, hroom, by simpa using hlen, hattempt⟩, hparse⟩, ha⟩
  have hframe := exec_goodDescriptor hp hgood
  rw [goodDescriptor_position _ hvalid] at hframe
  generalize hv : (s.modPort p fun x =>
    { afterLastByte f x with base := some u, badRun := 0, lastGood := some u.position, lostRaised := false }) = v at hframe
  have hscreens : v.screens = s.screens := hv ▸ rfl
  have hport : v.ports[p] = { afterLastByte f x with base := some u, badRun := 0, lastGood := some u.position, lostRaised := false } :=
    hv ▸ modPort_at s p _
  rw [raiseUpdate_single (by rw [hscreens]; exact ha)] at hframe
  obtain ⟨hkept, hothers⟩ := onScreen_hearUpdate (n := n) p u v
  obtain ⟨⟨ctx, htaken⟩, outcome, hcues⟩ := hearUpdate_atStep (s := v) (p := p) (n := n) (u := u) (q := q)
    (by rw [hscreens]; exact (ha n).2 rfl) (by rw [hscreens]; exact hrun) (by rw [hscreens]; exact hfollow)
    (by rw [hscreens]; exact hprogram) (by rw [hscreens]; exact hposition) hstep (by rw [hscreens]; exact hsafe.2)
  generalize State.hearUpdate p u n v = t at hframe hkept hothers htaken hcues
  have hports : t.ports[p] = v.ports[p] := by rw [hkept]
  rw [hscreens] at hcues
  refine ⟨t, hframe, ?_⟩
  rw [hports, hport, htaken, hcues]
  refine ⟨rfl, rfl, rfl, rfl, hl, rfl, rfl, rfl, rfl, List.length_map .., fun i k k' hk hk' => ?_, fun m hm => ?_⟩
  · rw [List.getElem?_map, hk, Option.map_some, Option.some.injEq] at hk'
    exact hk' ▸ settled_atStep u k (outcome k.id)
  · rw [hothers m hm, hscreens]

end Sys2Proof.Machine
end

-- Proofs/FrameScreens: what a master frame makes of a screen (O46)
section
/-! A master frame settles what is due, reads the ports, plays each screen, and sends. Of all that, four things reach the record of one
screen: the end of its crossfade, the slip of its port in use, its own playing, and its forward frame. `Undisturbed` says what the rest
keeps of it (R12, R66, R88, R92, R99, R108, R113). -/

namespace Sys2Proof.Machine

/-! ### What the rest of a master frame keeps of a screen -/

/-- A screen's record stays but for its notices and, in its meter and alarm unit, for the alarms, the pending set, the marks and the
summary; its SLIP alarm stays, and is pending where it was. -/
structure Undisturbed (x y : Screen) : Prop where
  record : y = { x with mon := y.mon, notice := y.notice }
  mon : y.mon = { x.mon with alarms := y.mon.alarms, pending := y.mon.pending, marks := y.mon.marks, summary := y.mon.summary }
  slip : y.mon.alarms[slipId] = x.mon.alarms[slipId]
  pending : y.mon.pending[slipId].isSome = x.mon.pending[slipId].isSome

section
variable {x y z : Screen}

theorem Undisturbed.refl (x : Screen) : Undisturbed x x := ⟨rfl, rfl, rfl, rfl⟩

theorem Undisturbed.trans (h : Undisturbed x y) (k : Undisturbed y z) : Undisturbed x z where
  record := Eq.trans k.record (congrArg (fun w : Screen => { w with mon := z.mon, notice := z.notice }) h.record)
  mon := Eq.trans k.mon (congrArg (fun w : Monitor =>
    { w with alarms := z.mon.alarms, pending := z.mon.pending, marks := z.mon.marks, summary := z.mon.summary }) h.mon)
  slip := k.slip.trans h.slip
  pending := k.pending.trans h.pending

/-- A change of the notices alone. -/
theorem undisturbed_notice (x : Screen) (u : NoticeUnit) : Undisturbed x { x with notice := u } := ⟨rfl, rfl, rfl, rfl⟩

/-- What is kept is kept under the same engine. -/
theorem Undisturbed.withEngine (h : Undisturbed x y) (e : Engine) : Undisturbed { x with eng := e } { y with eng := e } where
  record := congrArg (fun w : Screen => { w with eng := e }) h.record
  mon := h.mon
  slip := h.slip
  pending := h.pending

theorem Undisturbed.watched (h : Undisturbed x y) (i : Fin 54) : Watched y.mon i ↔ Watched x.mon i := by
  have hsame : y.mon.watches i = x.mon.watches i := by
    rw [h.mon]
    rfl
  rw [← watches_iff, hsame, watches_iff]

theorem Undisturbed.records (h : Undisturbed x y) (i : Fin 54) : y.mon.record i = x.mon.record i := by
  rw [h.mon]
  rfl

/-- An occurrence of another class than SLIP (R116). -/
theorem undisturbed_occurred {i : Fin 54} (h : slipId ≠ i) (x : Screen) : Undisturbed x (x.occurred i) := by
  obtain ⟨halarm, hpending⟩ := offer_other h x.mon
  refine ⟨rfl, ?_, halarm, congrArg (·.isSome) hpending⟩
  simp only [Screen.occurred, Monitor.summarise]
  rw [offer_rest x.mon i]

end

/-- From `s` to `t`, screen `n` is undisturbed. -/
def Passes (n : Fin 8) (s t : State) : Prop := Undisturbed s.screens[n] t.screens[n]

section
variable {n : Fin 8}

theorem Passes.refl (s : State) : Passes n s s := Undisturbed.refl _

theorem Passes.trans (s t u : State) (h : Passes n s t) (k : Passes n t u) : Passes n s u := Undisturbed.trans h k

theorem passes_of_same {s t : State} (h : t.screens[n] = s.screens[n]) : Passes n s t := by
  unfold Passes
  rw [h]
  exact .refl _

theorem passes_modScreen {s : State} {m : Fin 8} {f : Screen → Screen} (h : Undisturbed s.screens[m] (f s.screens[m])) :
    Passes n s (s.modScreen m f) := by
  unfold Passes
  simp only [Fin.getElem_fin, State.modScreen_get]
  split
  · next hm => subst hm; exact h
  · exact .refl _

/-! ### What is due before the frame -/

theorem passes_messageSent (p : Fin 12) (s : State) : Passes n s (s.messageSent p) := by
  unfold State.messageSent State.freeChannel
  split
  · next m _ =>
    split
    · cases m.owner with
      | resp =>
        simp only
        split <;> exact passes_of_same rfl
      | screen k => exact passes_modScreen (s := s.modArb p fun a => { a with channel := none }) (undisturbed_notice _ _)
    · exact .refl s
  · exact .refl s

/-- A choice of notice sets the noticed mark of an alarm that is pending (R161, R162). -/
theorem passes_choose (k : Fin 8) (s : State) : Passes n s (s.choose k) := by
  unfold State.choose
  simp only
  split
  · next src level _ _ hc =>
    refine passes_modScreen ?_
    cases src with
    | mark cue => exact ⟨rfl, rfl, rfl, rfl⟩
    | alarm i =>
      refine ⟨rfl, rfl, rfl, ?_⟩
      simp only [Monitor.noticed, Fin.getElem_fin, Vector.getElem_set]
      split
      · next hi =>
        have hflag := candidate_alarm_pending hc
        obtain rfl : i = slipId := Fin.ext hi
        simp only [Fin.getElem_fin] at hflag
        rw [hflag]
        rfl
      · rfl
  · exact .refl s

theorem forScreens_endCrossfade (s : State) : forScreens State.endCrossfade s =
    { s with screens := Vector.ofFn fun n => { s.screens[n] with eng := s.screens[n].eng.settled } } := by
  refine forScreens_modScreen (g := fun x => { x with eng := x.eng.settled }) fun n t _ => ?_
  unfold State.endCrossfade
  split
  · next h => exact modScreen_congr (by rw [Engine.settled, if_pos h])
  · next h => exact (modScreen_self (by rw [Engine.settled, if_neg h])).symm

/-- What is due before a frame ends the crossfade of a screen that has run (R99). -/
theorem settleDue_screen {s : State} (hr : s.resetPending = none) (n : Fin 8) :
    Undisturbed { s.screens[n] with eng := s.screens[n].eng.settled } s.settleDue.screens[n] := by
  have hsent : Passes n s (forPorts State.messageSent s) := forEach_keeps .refl .trans _ passes_messageSent _ s
  rw [settleDue_eq hr]
  generalize forPorts State.messageSent s = v at hsent ⊢
  have hchosen : Passes n (forScreens State.endCrossfade v) (forScreens State.choose (forScreens State.endCrossfade v)) :=
    forEach_keeps .refl .trans _ passes_choose _ _
  have hended : (forScreens State.endCrossfade v).screens[n] = { v.screens[n] with eng := v.screens[n].eng.settled } := by
    rw [forScreens_endCrossfade]
    simp
  have hengine : v.screens[n].eng = s.screens[n].eng := by rw [hsent.record]
  unfold Passes at hchosen
  rw [hended, hengine] at hchosen
  exact (hsent.withEngine _).trans hchosen

/-! ### The read of the ports -/

/-- A port is read once in a master frame (R12). -/
theorem readPort_port (p : Fin 12) (s : State) : (s.readPort p).ports[p] = s.ports[p].afterRead ∧
    ∀ q : Fin 12, q ≠ p → (s.readPort p).ports[q] = s.ports[q] := by
  have hslip (t : State) : (t.slipEvent p).ports = t.ports := by rw [(slipEvent_heard t p).1]
  have hports : (s.readPort p).ports = (s.modPort p Port.afterRead).ports := by
    unfold State.readPort
    simp only
    split
    · exact hslip _
    · rfl
  rw [hports]
  exact ⟨modPort_at s p _, fun q hq => State.modPort_other s p q _ hq⟩

/-- A read of the port in use may raise SLIP at a screen; no other read reaches it (R12, R49, R113). -/
theorem readPort_screen (p : Fin 12) (s : State) (n : Fin 8) : let x := s.screens[n]
    let y := (s.readPort p).screens[n]
    (x.ctx.activePort = some p ∧ s.ports[p].repeats = true → OccurrenceOf slipId x.mon y.mon ∧ y = { x with mon := y.mon }) ∧
    (¬(x.ctx.activePort = some p ∧ s.ports[p].repeats = true) → y = x) := by
  obtain ⟨-, -, hscreens⟩ := slipEvent_heard (s.modPort p Port.afterRead) p
  obtain ⟨hpasses, hhears⟩ := hscreens n
  unfold State.readPort
  by_cases hrep : s.ports[p].repeats = true
  · simp only [hrep, if_true, and_true]
    exact ⟨fun h => hhears h, fun h => hpasses h⟩
  · simp only [hrep]
    exact ⟨fun h => absurd h.2 Bool.false_ne_true, fun _ => rfl⟩

/-- A master frame's read of every port (R12). -/
theorem readPorts_ports (s : State) (p : Fin 12) : (forPorts State.readPort s).ports[p] = s.ports[p].afterRead := by
  obtain ⟨u, hu, ht⟩ := forEach_once (R := fun s t => t.ports[p] = s.ports[p]) (fun _ => rfl) (fun _ _ _ h k => k.trans h)
    (fun q t hq => (readPort_port q t).2 p hq.symm) (List.nodup_finRange 12) (List.mem_finRange p) s
  exact ht.trans ((readPort_port p u).1.trans (congrArg Port.afterRead hu))

/-- The port in use of screen `n` repeats a frame in this master frame (R12). -/
def Slips (n : Fin 8) (s : State) : Prop := ∃ p, s.screens[n].ctx.activePort = some p ∧ s.ports[p].repeats = true

/-- A screen hears of one slip in a master frame, of its port in use, if that port repeats (R12, R49, R113). -/
theorem readPorts_screen (s : State) (n : Fin 8) : let x := s.screens[n]
    let y := (forPorts State.readPort s).screens[n]
    (Slips n s → OccurrenceOf slipId x.mon y.mon ∧ y = { x with mon := y.mon }) ∧ (¬Slips n s → y = x) := by
  cases hport : s.screens[n].ctx.activePort with
  | none =>
    have hsame : s.screens[n].ctx.activePort = none → (forPorts State.readPort s).screens[n] = s.screens[n] :=
      forEach_keeps (R := fun s t => s.screens[n].ctx.activePort = none → t.screens[n] = s.screens[n]) (fun _ _ => rfl)
        (fun _ _ _ h k hs => (k (by rw [h hs]; exact hs)).trans (h hs)) _
        (fun p t ht => (readPort_screen p t n).2 fun h => by rw [ht] at h; cases h.1) _ s
    refine ⟨fun ⟨p, hp, _⟩ => ?_, fun _ => hsame hport⟩
    rw [hport] at hp
    cases hp
  | some p =>
    have hslips : Slips n s ↔ s.ports[p].repeats = true := by
      refine ⟨fun ⟨q, hq, hrep⟩ => ?_, fun h => ⟨p, hport, h⟩⟩
      obtain rfl := Option.some.inj (hport.symm.trans hq)
      exact hrep
    obtain ⟨u, hu, ht⟩ := forEach_once (f := State.readPort) (R := fun s t => s.screens[n].ctx.activePort = some p →
        t.screens[n] = s.screens[n] ∧ t.ports[p] = s.ports[p]) (fun _ _ => ⟨rfl, rfl⟩)
      (fun _ _ _ h k hs => have ⟨hscreen, hsame⟩ := h hs
        have ⟨kscreen, ksame⟩ := k (by rw [hscreen]; exact hs)
        ⟨kscreen.trans hscreen, ksame.trans hsame⟩)
      (fun q t hq hs => ⟨(readPort_screen q t n).2 fun h => hq (Option.some.inj (h.1.symm.trans hs)), (readPort_port q t).2 p hq.symm⟩)
      (List.nodup_finRange 12) (List.mem_finRange p) s
    obtain ⟨hscreen, hsame⟩ := hu hport
    obtain ⟨hhears, hpasses⟩ := readPort_screen p u n
    rw [hscreen, hsame, hport] at hhears hpasses
    have hkept : (State.readPort p u).screens[n].ctx.activePort = some p := by
      by_cases hrep : s.ports[p].repeats = true
      · rw [(hhears ⟨rfl, hrep⟩).2]
        exact hport
      · rw [hpasses fun h => hrep h.2]
        exact hport
    rw [show (forPorts State.readPort s).screens[n] = (State.readPort p u).screens[n] from (ht hkept).1, hslips]
    exact ⟨fun hrep => hhears ⟨rfl, hrep⟩, fun hrep => hpasses fun h => hrep h.2⟩

/-! ### Playing -/

/-- A screen plays by its own frame, and then takes its CLIP occurrences; no other screen's playing reaches it (R88, R113). -/
theorem playScreen_screen (s : State) (n : Fin 8) (ins : Inputs) :
    Undisturbed (s.screens[n].frame ins) (s.playScreen n ins).screens[n] ∧
    ∀ m : Fin 8, m ≠ n → (s.playScreen n ins).screens[m] = s.screens[m] := by
  have hocc (c : Fin 16) (t : State) : Passes n t (t.occur n (clipId c)) := by
    unfold Passes
    rw [occur_screen]
    exact undisturbed_occurred (clipId_ne_slipId c).symm _
  have hplayed : Passes n (s.modScreen n (Screen.frame ins)) (s.playScreen n ins) := forEach_keeps .refl .trans _ hocc _ _
  refine ⟨?_, fun m hm => ?_⟩
  · unfold Passes at hplayed
    rwa [modScreen_at] at hplayed
  · have hothers : (s.playScreen n ins).screens[m] = (s.modScreen n (Screen.frame ins)).screens[m] :=
      forEach_keeps (R := fun s t => t.screens[m] = s.screens[m]) (fun _ => rfl) (fun _ _ _ h k => k.trans h) _
        (fun c t => alarmEvent_other hm _) _ _
    exact hothers.trans (State.modScreen_other s n m _ hm)

theorem playScreens_screen (s : State) (inputs : Vector Inputs 8) (n : Fin 8) :
    Undisturbed (s.screens[n].frame inputs[n]) (forScreens (fun n t => t.playScreen n inputs[n]) s).screens[n] := by
  obtain ⟨u, hu, ht⟩ := forEach_once (f := fun n t => State.playScreen t n inputs[n]) (R := fun s t => t.screens[n] = s.screens[n])
    (fun _ => rfl) (fun _ _ _ h k => k.trans h) (fun m t hm => (playScreen_screen t m inputs[m]).2 n hm.symm)
    (List.nodup_finRange 8) (List.mem_finRange n) s
  rw [show (forScreens (fun n t => t.playScreen n inputs[n]) s).screens[n] = (u.playScreen n inputs[n]).screens[n] from ht,
    ← show u.screens[n] = s.screens[n] from hu]
  exact (playScreen_screen u n inputs[n]).1

/-! ### Sending -/

/-- Every screen port sends its forward frame (R27). -/
theorem sendForwards_eq (index : Nat) (s : State) : forScreens (State.sendForward index) s =
    { s with screens := Vector.ofFn fun n => { s.screens[n] with link :=
      { s.screens[n].link with sent := some (s.screens[n].forwardFrame index) } } } :=
  forScreens_modScreen (g := fun x => { x with link := { x.link with sent := some (x.forwardFrame index) } }) fun _ _ _ => rfl

/-- From `s` to `t`, the records of the screens stay but for their notices. -/
def NoticesOnly (s t : State) : Prop := ∀ n : Fin 8, t.screens[n] = { s.screens[n] with notice := t.screens[n].notice }

theorem NoticesOnly.refl (s : State) : NoticesOnly s s := fun _ => rfl

theorem NoticesOnly.trans (s t u : State) (h : NoticesOnly s t) (k : NoticesOnly t u) : NoticesOnly s u := fun n =>
  Eq.trans (k n) (congrArg (fun w : Screen => { w with notice := u.screens[n].notice }) (h n))

theorem noticesOnly_modNotice (s : State) (m : Fin 8) (f : NoticeUnit → NoticeUnit) : NoticesOnly s (s.modNotice m f) := fun n => by
  rw [State.modNotice_eq]
  by_cases hm : n = m
  · subst hm
    rw [modScreen_at]
  · rw [show (s.modScreen m fun x => { x with notice := f x.notice }).screens[n] = s.screens[n] from State.modScreen_other s m n _ hm]

theorem noticesOnly_occupy (p : Fin 12) (q : Requester) (s : State) : NoticesOnly s (s.occupy p q) := by
  unfold State.occupy
  cases q with
  | resp => exact fun _ => rfl
  | screen m =>
    simp only
    split
    · exact noticesOnly_modNotice (s.modArb p _) m _
    · exact .refl s

theorem noticesOnly_grant (p : Fin 12) (s : State) : NoticesOnly s (s.grant p) := by
  unfold State.grant
  split
  · split
    · exact noticesOnly_occupy p _ (s.modArb p _)
    · split
      · exact noticesOnly_occupy p _ (s.modArb p _)
      · exact .refl s
  · exact .refl s

theorem noticesOnly_sendReturn (index : Nat) (p : Fin 12) (s : State) : NoticesOnly s (s.sendReturn index p) := by
  unfold State.sendReturn
  split
  · exact fun _ => rfl
  · exact noticesOnly_grant p s

/-! ### The whole frame -/

/-- `z` is what a master frame with index `index` makes of the record `x` of a screen: its crossfade ends where due, its unit takes a
slip where `slips` says so, it plays, and its port sends (R12, R27, R88, R99, R113). -/
def FrameMakes (slips : Prop) (index : Nat) (x z : Screen) : Prop :=
  ∃ (settled heard played : Screen) (ins : Inputs), Undisturbed { x with eng := x.eng.settled } settled ∧
    (slips → OccurrenceOf slipId settled.mon heard.mon ∧ heard = { settled with mon := heard.mon }) ∧ (¬slips → heard = settled) ∧
    Undisturbed (heard.frame ins) played ∧
    z = { played with link := { played.link with sent := some (played.forwardFrame index) }, notice := z.notice }

theorem masterFrame_screen {s : State} (hr : s.resetPending = none) (n : Fin 8) :
    FrameMakes (Slips n s) s.frameIndex s.screens[n] s.masterFrame.screens[n] := by
  have hsettled := settleDue_screen hr n
  obtain ⟨hrest, -⟩ := channelsOnly_settleDue hr
  have hsame : s.settleDue.ports = s.ports ∧ s.settleDue.frameIndex = s.frameIndex := by
    rw [hrest]
    exact ⟨rfl, rfl⟩
  unfold State.masterFrame
  generalize s.settleDue = d at hsettled hsame ⊢
  simp only
  obtain ⟨hports, hindex⟩ := hsame
  have hslips : Slips n d ↔ Slips n s := by
    have hactive : d.screens[n].ctx.activePort = s.screens[n].ctx.activePort := by rw [hsettled.record]
    rw [Slips, hactive, hports, Slips]
  obtain ⟨hhears, hpasses⟩ := readPorts_screen d n
  generalize forPorts State.readPort d = r at hhears hpasses ⊢
  have hplayed := playScreens_screen r (Vector.ofFn fun m => inputsOf (d.screenSlots m)) n
  generalize forScreens (fun m t => t.playScreen m (Vector.ofFn fun m => inputsOf (d.screenSlots m))[m]) r = v at hplayed ⊢
  rw [hslips] at hhears hpasses
  have hsent : NoticesOnly (forScreens (State.sendForward d.frameIndex) v)
      (forPorts (State.sendReturn d.frameIndex) (forScreens (State.sendForward d.frameIndex) v)) :=
    forEach_keeps .refl .trans _ (noticesOnly_sendReturn _) _ _
  refine ⟨_, r.screens[n], v.screens[n], _, hsettled, hhears, hpasses, hplayed, (hsent n).trans ?_⟩
  rw [sendForwards_eq, hindex]
  simp

end

/-! ### What of a screen's frame shows -/

section
variable {slips : Prop} {index : Nat} {x z : Screen}

/-- A frame changes of a screen's record its decoder, its engine and its meters alone (R88, R108). -/
theorem frame_rest (ins : Inputs) (x : Screen) : ∃ meters,
    x.frame ins = { x with dec := (x.frame ins).dec, eng := (x.frame ins).eng, mon := { x.mon with meters := meters } } := by
  unfold Screen.frame
  cases x.ctx.state with
  | dark => exact ⟨x.mon.meters, rfl⟩
  | standby | running => exact ⟨_, rfl⟩

/-- The SLIP alarm after a frame (R113, R116). -/
theorem FrameMakes.slip (h : FrameMakes slips index x z) :
    (¬slips ∨ ¬Watched x.mon slipId → z.mon.alarms[slipId] = x.mon.alarms[slipId] ∧
      (z.mon.pending[slipId].isSome = true ↔ x.mon.pending[slipId].isSome = true)) ∧
    (slips → Watched x.mon slipId → let a := x.mon.alarms[slipId].resumed
      AtOccurrence (x.mon.record slipId) a z.mon.alarms[slipId] ∧
      (z.mon.pending[slipId].isSome = true ↔ x.mon.pending[slipId].isSome = true ∨
        (z.mon.alarms[slipId].state = .raised ∧ (a.state = .clear ∨ a.state = .qualifying)))) := by
  obtain ⟨settled, heard, played, ins, hsettled, hhears, hpasses, hplayed, hz⟩ := h
  obtain ⟨meters, hframe⟩ := frame_rest ins heard
  have hmon : z.mon = played.mon := by rw [hz]
  have halarm : z.mon.alarms[slipId] = heard.mon.alarms[slipId] := by rw [hmon, hplayed.slip, hframe]
  have hpending : z.mon.pending[slipId].isSome = heard.mon.pending[slipId].isSome := by rw [hmon, hplayed.pending, hframe]
  rw [halarm, hpending, ← hsettled.slip, ← hsettled.pending, ← hsettled.watched slipId, ← hsettled.records slipId]
  by_cases hslip : slips
  · obtain ⟨⟨-, -, -, hunwatched, hwatched⟩, -⟩ := hhears hslip
    refine ⟨fun h => ?_, fun _ hw => ?_⟩
    · obtain ⟨ha, hp⟩ := hunwatched (h.resolve_left fun h => h hslip)
      rw [ha, hp]
      exact ⟨rfl, .rfl⟩
    · obtain ⟨hat, hnone, -, -⟩ := hwatched hw
      refine ⟨hat, ?_⟩
      rw [Option.isSome_iff_ne_none, Option.isSome_iff_ne_none, ne_eq, hnone, not_and_or, not_not]
  · rw [hpasses hslip]
    exact ⟨fun _ => ⟨rfl, .rfl⟩, fun h => absurd h hslip⟩

/-- The engine after a frame keeps the fader, the fade and the mute (R88). -/
theorem frame_fader (ins : Inputs) (x : Screen) : (x.frame ins).eng.fader = x.eng.fader ∧ (x.frame ins).eng.fade = x.eng.fade ∧
    (x.frame ins).eng.mute = x.eng.mute := by
  unfold Screen.frame
  cases x.ctx.state with
  | dark | standby | running => exact ⟨rfl, rfl, rfl⟩

theorem setBank_fader (e : Engine) (k : Bank) (v : Vector Chain 16) : (e.setBank k v).fader = e.fader ∧ (e.setBank k v).fade = e.fade ∧
    (e.setBank k v).mute = e.mute := by
  cases k <;> exact ⟨rfl, rfl, rfl⟩

theorem settled_fader (e : Engine) : e.settled.fader = e.fader ∧ e.settled.fade = e.fade ∧ e.settled.mute = e.mute := by
  have hended : e.endCrossfade.fader = e.fader ∧ e.endCrossfade.fade = e.fade ∧ e.endCrossfade.mute = e.mute := by
    unfold Engine.endCrossfade
    cases e.crossfade with
    | none => exact ⟨rfl, rfl, rfl⟩
    | some y =>
      simp only [Engine.restBank]
      exact setBank_fader { e with active := y.incoming, crossfade := none } _ _
  unfold Engine.settled
  split
  · exact hended
  · exact ⟨rfl, rfl, rfl⟩

/-- Engine, decoder and meters after a master frame are those of the screen's own frame (R88, R108). -/
theorem FrameMakes.audio (h : FrameMakes slips index x z) : ∃ (heard : Screen) (ins : Inputs), heard.ctx = x.ctx ∧ heard.dec = x.dec ∧
    heard.eng = x.eng.settled ∧ heard.mon.meters = x.mon.meters ∧ z.eng = (heard.frame ins).eng ∧ z.dec = (heard.frame ins).dec ∧
    z.mon.meters = (heard.frame ins).mon.meters := by
  obtain ⟨settled, heard, played, ins, hsettled, hhears, hpasses, hplayed, hz⟩ := h
  have hmeters : heard.mon.meters = settled.mon.meters ∧ heard = { settled with mon := heard.mon } := by
    by_cases hslip : slips
    · obtain ⟨⟨hmon, -⟩, hrest⟩ := hhears hslip
      exact ⟨by rw [hmon], hrest⟩
    · rw [hpasses hslip]
      exact ⟨rfl, rfl⟩
  obtain ⟨hmeters, hrest⟩ := hmeters
  refine ⟨heard, ins, ?_, ?_, ?_, ?_, ?_, ?_, ?_⟩
  · rw [hrest, hsettled.record]
  · rw [hrest, hsettled.record]
  · rw [hrest, hsettled.record]
  · rw [hmeters, hsettled.mon]
  · rw [hz, hplayed.record]
  · rw [hz, hplayed.record]
  · rw [hz]
    exact (congrArg Monitor.meters hplayed.mon).trans rfl

/-- A screen in DARK, with no crossfade, puts out zeros and changes nothing else of its audio (R88). -/
theorem FrameMakes.dark (h : FrameMakes slips index x z) (hst : x.ctx.state = .dark) (hfade : x.eng.crossfade = none) :
    z.eng = { x.eng with outputs := Vector.replicate 16 0 } ∧ z.dec = x.dec ∧ z.mon.meters = x.mon.meters := by
  obtain ⟨heard, ins, hctx, hdec, heng, hmeters, zeng, zdec, zmeters⟩ := h.audio
  have hframe : heard.frame ins = { heard with eng := { heard.eng with outputs := Vector.replicate 16 0 } } := by
    unfold Screen.frame
    rw [hctx, hst]
  rw [zeng, zdec, zmeters, hframe]
  refine ⟨?_, hdec, hmeters⟩
  rw [heng, settled_none hfade]

/-- A screen that plays puts out zeros under mute, and its running peaks take its outputs (R92, R108). -/
theorem FrameMakes.plays (h : FrameMakes slips index x z) (hst : x.ctx.state ≠ .dark) (c : Fin 16) :
    (x.eng.mute = true → z.eng.outputs[c] = 0) ∧
    z.mon.meters[c] = { x.mon.meters[c] with
      running := max x.mon.meters[c].running (min 8388607 (z.eng.outputs[c].natAbs : Int)) } := by
  obtain ⟨heard, ins, hctx, hdec, heng, hmeters, zeng, -, zmeters⟩ := h.audio
  have hplaying := frame_playing (ins := ins) (x := heard) (by rw [hctx]; exact hst)
  rw [zeng, zmeters, hplaying]
  refine ⟨fun hmute => ?_, ?_⟩
  · rw [afterFrame_output, heng, (settled_fader x.eng).2.2, hmute]
    rfl
  · simp only [Fin.getElem_fin, Vector.getElem_ofFn, hmeters]
    rfl

theorem FrameMakes.fader (h : FrameMakes slips index x z) :
    z.eng.fader = x.eng.fader ∧ z.eng.fade = x.eng.fade ∧ z.eng.mute = x.eng.mute := by
  obtain ⟨heard, ins, -, -, heng, -, zeng, -, -⟩ := h.audio
  rw [zeng, (frame_fader ins heard).1, (frame_fader ins heard).2.1, (frame_fader ins heard).2.2, heng]
  exact settled_fader x.eng

end

/-! ### The program ports in a master frame -/

/-- From `s` to `t`, the ports stay but for the frame last sent. -/
def SentOnly (s t : State) : Prop := ∀ p : Fin 12, t.ports[p] = { s.ports[p] with sent := t.ports[p].sent }

theorem SentOnly.refl (s : State) : SentOnly s s := fun _ => rfl

theorem SentOnly.trans (s t u : State) (h : SentOnly s t) (k : SentOnly t u) : SentOnly s u := fun p =>
  Eq.trans (k p) (congrArg (fun w : Port => { w with sent := u.ports[p].sent }) (h p))

theorem sentOnly_of_same {s t : State} (h : t.ports = s.ports) : SentOnly s t := fun p => by rw [h]

theorem occupy_ports (s : State) (p : Fin 12) (q : Requester) : (s.occupy p q).ports = s.ports := by
  unfold State.occupy
  cases q with
  | resp => rfl
  | screen m =>
    simp only
    split <;> rfl

theorem grant_ports (s : State) (p : Fin 12) : (s.grant p).ports = s.ports := by
  unfold State.grant
  split
  · split
    · exact occupy_ports (s.modArb p _) p _
    · split
      · exact occupy_ports (s.modArb p _) p _
      · rfl
  · rfl

theorem sentOnly_modPort (s : State) (p : Fin 12) (frame : Port → Option (LinkFrame 1)) :
    SentOnly s (s.modPort p fun x => { x with sent := frame x }) := fun q => by
  by_cases hq : q = p
  · subst hq
    rw [modPort_at]
  · rw [show (s.modPort p fun x => { x with sent := frame x }).ports[q] = s.ports[q] from State.modPort_other s p q _ hq]

theorem sentOnly_sendReturn (index : Nat) (p : Fin 12) (s : State) : SentOnly s (s.sendReturn index p) := by
  unfold State.sendReturn
  split
  · exact sentOnly_modPort s p _
  · have hsent := sentOnly_modPort (s.grant p) p fun x =>
      some (x.returnFrame index (s.grant p).arbiters[p].nextWord.1 (s.grant p).arbiters[p].nextWord.2)
    exact .trans _ _ _ (sentOnly_of_same (grant_ports s p)) hsent

theorem playScreen_ports (s : State) (n : Fin 8) (ins : Inputs) : (s.playScreen n ins).ports = s.ports := by
  have hclips : (s.playScreen n ins).ports = (s.modScreen n (Screen.frame ins)).ports :=
    forEach_keeps (R := fun s t => t.ports = s.ports) (fun _ => rfl) (fun _ _ _ h k => k.trans h)
      (fun c s => s.occur n (clipId c)) (fun _ _ => rfl) _ _
  exact hclips

theorem playScreens_ports (s : State) (inputs : Vector Inputs 8) : (forScreens (fun n t => t.playScreen n inputs[n]) s).ports = s.ports :=
  forEach_keeps (R := fun s t => t.ports = s.ports) (fun _ => rfl) (fun _ _ _ h k => k.trans h) _
    (fun n t => playScreen_ports t n inputs[n]) _ s

/-- A port after a master frame has been read, and has sent (R8, R12). -/
theorem masterFrame_port {s : State} (hr : s.resetPending = none) (p : Fin 12) :
    s.masterFrame.ports[p] = { s.ports[p].afterRead with sent := s.masterFrame.ports[p].sent } := by
  obtain ⟨hrest, -⟩ := channelsOnly_settleDue hr
  have hports : s.settleDue.ports = s.ports := by rw [hrest]
  unfold State.masterFrame
  generalize s.settleDue = d at hports ⊢
  simp only
  have hread := readPorts_ports d p
  generalize forPorts State.readPort d = r at hread ⊢
  have hplayed := playScreens_ports r (Vector.ofFn fun m => inputsOf (d.screenSlots m))
  generalize forScreens (fun m t => t.playScreen m (Vector.ofFn fun m => inputsOf (d.screenSlots m))[m]) r = v at hplayed ⊢
  have hsent : SentOnly (forScreens (State.sendForward d.frameIndex) v)
      (forPorts (State.sendReturn d.frameIndex) (forScreens (State.sendForward d.frameIndex) v)) :=
    forEach_keeps .refl .trans _ (sentOnly_sendReturn _) _ _
  have hforward : (forScreens (State.sendForward d.frameIndex) v).ports[p] = s.ports[p].afterRead := by
    rw [sendForwards_eq]
    exact (congrArg (·[p]) hplayed).trans (hread.trans (by rw [hports]))
  exact (hsent p).trans (by rw [hforward])

/-- A read of a port (R12). -/
theorem afterRead_cases (x : Port) :
    (¬(x.state = .locked ∧ x.started = true) → x.afterRead = x) ∧
    (∀ o rest, x.state = .locked ∧ x.started = true → x.buffer = o :: rest →
      x.afterRead = { x with buffer := rest, lastFrame := some o }) ∧
    (x.state = .locked ∧ x.started = true → x.buffer = [] →
      x.afterRead = { x with counters := { x.counters with slips := oneMore x.counters.slips } }) := by
  refine ⟨fun h => if_neg h, fun o rest h hb => (if_pos h).trans ?_, fun h hb => (if_pos h).trans ?_⟩
  · rw [hb]
  · rw [hb]
    rfl

theorem slips_iff (s : State) (n : Fin 8) : Slips n s ↔ ∃ p, s.screens[n].ctx.activePort = some p ∧ s.ports[p].state = .locked ∧
    s.ports[p].started = true ∧ s.ports[p].buffer = [] := by
  simp only [Slips, Port.repeats, Bool.and_eq_true, beq_iff_eq, List.isEmpty_iff, and_assoc]

/-- Settles O46: what a master frame makes of a screen (`masterFrame_screen`) and of a port (`masterFrame_port`), read off. -/
theorem masterFrameReadsAndMeters : Obligations.MasterFrameReadsAndMeters := by
  intro s hp hr
  have hscreens := masterFrame_screen hr
  have hports := masterFrame_port hr
  refine ⟨s.masterFrame, live_on hp _, ?_⟩
  generalize s.masterFrame = t at hscreens hports
  refine ⟨fun n => ?_, fun p => ?_, fun n => ?_⟩
  · have hslip := (hscreens n).slip
    rw [slips_iff] at hslip
    exact hslip
  · obtain ⟨hidle, htakes, hrepeats⟩ := afterRead_cases s.ports[p]
    have hport := hports p
    generalize t.ports[p] = y at hport ⊢
    refine ⟨fun h => ?_, fun o rest h hb => ?_, fun h hb => ?_⟩
    · rwa [hidle h] at hport
    · rwa [htakes o rest h hb] at hport
    · rwa [hrepeats h hb] at hport
  · have hmakes := hscreens n
    refine ⟨hmakes.dark, fun hst c => ?_, hmakes.fader⟩
    obtain ⟨hmute, hmeter⟩ := hmakes.plays hst c
    rw [hmeter]
    exact ⟨hmute, rfl, rfl, rfl⟩

end Sys2Proof.Machine
end

-- Proofs/FrameSends: what every port sends in a master frame (O45)
section
/-! Between the settling of what is due and the return frames, a master frame leaves arbiters, contexts and notices as they are
(`Aside`). Each port then sends its return frame once, apart from what every other port's sending reaches (`Apart`): a grant where one
is due (`grant_granted`), and one word of the message on its channel (R8, R27 to R29, R170, R172, R190). -/

namespace Sys2Proof.Machine

/-! ### Frames by their fields -/

section
variable (sync : Byte) (index : Nat) (code : ServiceCode) (byte : Byte)

/-- A header word bit by bit (R190). -/
theorem mkHeader_bit (i : Nat) : (mkHeader sync index code byte).getLsbD i =
    if i < 8 then byte.getLsbD i else if i < 10 then (codeBits code).getLsbD (i - 8)
    else if i < 16 then (BitVec.ofNat 6 index).getLsbD (i - 10) else sync.getLsbD (i - 16) := by
  have happend : (mkHeader sync index code byte).getLsbD i =
      BitVec.getLsbD (w := 8 + 6 + 2 + 8) (sync ++ BitVec.ofNat 6 index ++ codeBits code ++ byte) i := rfl
  rw [happend, BitVec.getLsbD_append, BitVec.getLsbD_append, BitVec.getLsbD_append, Nat.sub_sub, Nat.sub_sub]
  have hcode : i - 8 < 2 ↔ i < 10 := by omega
  have hindex : i - (8 + 2) < 6 ↔ i < 16 := by omega
  simp only [hcode, hindex]

theorem headerSync_mkHeader : headerSync (mkHeader sync index code byte) = sync := by
  refine BitVec.eq_of_getLsbD_eq fun i hi => ?_
  rw [headerSync, BitVec.getLsbD_extractLsb', mkHeader_bit, if_neg (by omega), if_neg (by omega), if_neg (by omega)]
  simp [hi]

theorem headerByte_mkHeader : headerByte (mkHeader sync index code byte) = byte := by
  refine BitVec.eq_of_getLsbD_eq fun i hi => ?_
  rw [headerByte, BitVec.getLsbD_extractLsb', mkHeader_bit, if_pos (by omega)]
  simp [hi]

theorem headerIndex_mkHeader (h : index ≤ 47) : headerIndex (mkHeader sync index code byte) = index := by
  have hbits : (mkHeader sync index code byte).extractLsb' 10 6 = BitVec.ofNat 6 index := by
    refine BitVec.eq_of_getLsbD_eq fun i hi => ?_
    rw [BitVec.getLsbD_extractLsb', mkHeader_bit, if_neg (by omega), if_neg (by omega), if_pos (by omega), Nat.add_sub_cancel_left]
    simp [hi]
  rw [headerIndex, hbits, BitVec.toNat_ofNat]
  omega

theorem headerCode_mkHeader : headerCode (mkHeader sync index code byte) = code := by
  have hbits : (mkHeader sync index code byte).extractLsb' 8 2 = codeBits code := by
    refine BitVec.eq_of_getLsbD_eq fun i hi => ?_
    rw [BitVec.getLsbD_extractLsb', mkHeader_bit, if_neg (by omega), if_pos (by omega), Nat.add_sub_cancel_left]
    simp [hi]
  rw [headerCode, hbits]
  cases code <;> rfl

end

/-- A frame carries its check (R190). -/
theorem frameCheck_mkFrame {n : Nat} (header : BitVec 24) (slots : Vector Slot n) (service : Word) :
    frameCheck (mkFrame header slots service) = (mkFrame header slots service).check := by
  simp only [mkFrame, frameCheck, frameBits]

theorem forwardByte_toNat (echo : Bool) (state : ScreenState) :
    (forwardByte echo state).toNat = (if echo then 128 else 0) + screenStateCode state := by
  cases echo <;> cases state <;> decide

/-! ### Before the return frames -/

/-- From `s` to `t` a part of the frame that reaches no arbiter, no context and no notice. -/
def Aside (s t : State) : Prop :=
  t = { s with ports := t.ports, screens := t.screens, lines := t.lines } ∧
  ∀ n : Fin 8, t.screens[n].ctx = s.screens[n].ctx ∧ t.screens[n].notice = s.screens[n].notice

theorem Aside.refl (s : State) : Aside s s := ⟨rfl, fun _ => ⟨rfl, rfl⟩⟩

theorem Aside.trans (s t u : State) (h : Aside s t) (k : Aside t u) : Aside s u :=
  ⟨Eq.trans k.1 (congrArg (fun w : State => { w with ports := u.ports, screens := u.screens, lines := u.lines }) h.1),
    fun n => ⟨(k.2 n).1.trans (h.2 n).1, (k.2 n).2.trans (h.2 n).2⟩⟩

theorem aside_modPort (s : State) (p : Fin 12) (f : Port → Port) : Aside s (s.modPort p f) := ⟨rfl, fun _ => ⟨rfl, rfl⟩⟩

theorem aside_modScreen (s : State) (m : Fin 8) {f : Screen → Screen} (hf : ∀ x, (f x).ctx = x.ctx ∧ (f x).notice = x.notice) :
    Aside s (s.modScreen m f) := by
  refine ⟨rfl, fun n => ?_⟩
  simp only [Fin.getElem_fin, State.modScreen_get]
  split
  · next hm => subst hm; exact hf _
  · exact ⟨rfl, rfl⟩

theorem aside_occur (s : State) (m : Fin 8) (id : Fin 54) : Aside s (s.occur m id) := by
  have hunit := (aside_modScreen s m (f := fun x => { x with mon := (x.mon.offer id).summarise }) fun _ => ⟨rfl, rfl⟩).2
  rw [State.occur, alarmEvent_eq]
  exact ⟨rfl, hunit⟩

theorem aside_readPort (p : Fin 12) (s : State) : Aside s (s.readPort p) := by
  have hslip (t : State) : Aside t (t.slipEvent p) := by
    refine forEach_keeps .refl .trans _ (fun m u => ?_) _ t
    split
    · exact aside_occur u m slipId
    · exact .refl u
  unfold State.readPort
  simp only
  split
  · exact .trans _ _ _ (aside_modPort s p _) (hslip _)
  · exact aside_modPort s p _

theorem aside_playScreen (s : State) (n : Fin 8) (ins : Inputs) : Aside s (s.playScreen n ins) := by
  have hframe : Aside s (s.modScreen n (Screen.frame ins)) := aside_modScreen s n fun x => by
    unfold Screen.frame
    cases x.ctx.state with
    | dark | standby | running => exact ⟨rfl, rfl⟩
  exact .trans _ _ _ hframe (forEach_keeps .refl .trans _ (fun c t => aside_occur t n (clipId c)) _ _)

theorem aside_sendForward (index : Nat) (n : Fin 8) (s : State) : Aside s (s.sendForward index n) :=
  aside_modScreen s n fun _ => ⟨rfl, rfl⟩

/-! ### Grants -/

section
variable {s : State} {p : Fin 12}

theorem modArb_at (s : State) (p : Fin 12) (f : Arbiter → Arbiter) : (s.modArb p f).arbiters[p] = f s.arbiters[p] :=
  State.modArb_same s p f

theorem guaranteed_waits {q : Requester} (h : s.guaranteed p = some q) : s.waits p q = true := by
  unfold State.guaranteed at h
  have hpromised := List.find?_some h
  exact (Bool.and_eq_true_iff.1 hpromised).1

theorem rotation_waits {q : Requester} {burst : Nat} (h : s.rotation p = some (q, burst)) : s.waits p q = true := by
  have hturn {r : Requester × Nat} (hr : ((orderAfter s.arbiters[p].holder).find? (s.waits p)).map (fun q => (q, 1)) = some r) :
      s.waits p r.1 = true := by
    obtain ⟨q, hq, rfl⟩ := Option.map_eq_some_iff.1 hr
    exact List.find?_some hq
  unfold State.rotation at h
  simp only at h
  split at h
  · split at h
    · next hstays =>
      obtain ⟨rfl, -⟩ := Prod.mk.inj (Option.some.inj h)
      exact hstays.1
    · exact hturn h
  · exact hturn h

/-- Where a requester waits, the rotation finds one (R171). -/
theorem rotation_some {q : Requester} (hq : s.waits p q = true) : ∃ r, s.rotation p = some r := by
  have hmem : q ∈ orderAfter s.arbiters[p].holder := by
    rw [orderAfter_eq]
    exact mem_cyclicAfter _ q
  obtain ⟨r, hr⟩ := Option.isSome_iff_exists.1 (List.find?_isSome.2 ⟨q, hmem, hq⟩)
  unfold State.rotation
  simp only [hr]
  split
  · split
    · exact ⟨_, rfl⟩
    · exact ⟨_, rfl⟩
  · exact ⟨_, rfl⟩

/-- A grant is to one requester that waits, which takes the channel after a change of the arbiter's counts alone (R170 to R172). -/
def GrantsOne (s : State) (p : Fin 12) : Prop :=
  ∃ (q : Requester) (f : Arbiter → Arbiter), s.waits p q = true ∧ (∀ a, (f a).queue = a.queue) ∧
    s.grant p = (s.modArb p f).occupy p q

/-- At a LOCKED port with a free channel a requester is granted, if one waits (R170, R171). -/
theorem grant_granted (hopen : s.ports[p].state = .locked ∧ s.arbiters[p].channel = none) {q : Requester} (hq : s.waits p q = true) :
    GrantsOne s p := by
  cases hg : s.guaranteed p with
  | some r => exact ⟨r, Arbiter.useGuarantee r, guaranteed_waits hg, useGuarantee_queue r, grant_guaranteed hopen hg⟩
  | none =>
    obtain ⟨⟨r, burst⟩, hr⟩ := rotation_some hq
    exact ⟨r, fun a => { a with holder := some r, burst }, rotation_waits hr, fun _ => rfl, grant_rotation hopen hg hr⟩

theorem grant_cases (s : State) (p : Fin 12) : s.grant p = s ∨ (s.arbiters[p].channel = none ∧ GrantsOne s p) := by
  by_cases hopen : s.ports[p].state = .locked ∧ s.arbiters[p].channel = none
  · by_cases hwaits : ∃ q, s.waits p q = true
    · obtain ⟨q, hq⟩ := hwaits
      exact .inr ⟨hopen.2, grant_granted hopen hq⟩
    · exact .inl (grant_nobody fun q hq => hwaits ⟨q, (waits_iff s p q).2 hq⟩)
  · exact .inl (grant_closed (not_and_or.1 hopen))

/-- The response queue's grant (R172). -/
theorem occupy_resp {f : Arbiter → Arbiter} {r : Response} {rest : List Response} (h : (f s.arbiters[p]).queue = r :: rest) :
    ((s.modArb p f).occupy p .resp).arbiters[p] = { f s.arbiters[p] with
      queue := rest, channel := some { owner := .resp, words := r.words, sent := 0, forReset := r.forReset } } := by
  rw [State.occupy, modArb_modArb, modArb_at]
  simp only [h]

/-- A screen's grant (R172). -/
theorem occupy_screen {f : Arbiter → Arbiter} {n : Fin 8} {u : Unsent} (h : s.screens[n].notice.unsent = some u) :
    (s.modArb p f).occupy p (.screen n) = ((s.modArb p fun a => { f a with
      channel := some { owner := .screen n, words := u.words, sent := 0, forReset := false } }).modNotice n
        fun v => { v with unsent := some { u with sending := true } }) := by
  rw [State.occupy, State.modArb_screens, h]
  simp only [modArb_modArb]

/-- A message granted in this frame has sent no word before it (R172). -/
theorem grant_fresh (hfree : s.arbiters[p].channel = none) {m : Sending} (h : (s.grant p).arbiters[p].channel = some m) : m.sent = 0 := by
  obtain hsame | ⟨-, q, f, hq, hf, hgrant⟩ := grant_cases s p
  · rw [hsame, hfree] at h
    cases h
  · rw [hgrant] at h
    cases q with
    | resp =>
      cases hqueue : s.arbiters[p].queue with
      | nil => exact absurd hqueue ((waits_iff s p .resp).1 hq)
      | cons r rest =>
        rw [occupy_resp (by rw [hf, hqueue])] at h
        exact congrArg Sending.sent (Option.some.inj h).symm
    | screen n =>
      obtain ⟨_, u, -, -, hu, -⟩ := (waits_iff s p (.screen n)).1 hq
      rw [occupy_screen hu] at h
      rw [State.modNotice_eq, State.modScreen_arbiters, modArb_at] at h
      exact congrArg Sending.sent (Option.some.inj h).symm

end

/-! ### What the sending of another port reaches -/

/-- From `s` to `t`, port `p`, its arbiter, the contexts and the notices of the screens routed to `p` stay. -/
def Apart (p : Fin 12) (s t : State) : Prop :=
  t.ports[p] = s.ports[p] ∧ t.arbiters[p] = s.arbiters[p] ∧ ∀ n : Fin 8, t.screens[n].ctx = s.screens[n].ctx ∧
    (s.screens[n].ctx.route.map (·.port) = some p → t.screens[n].notice = s.screens[n].notice)

section
variable {s : State} {p q : Fin 12}

theorem Apart.refl (s : State) : Apart p s s := ⟨rfl, rfl, fun _ => ⟨rfl, fun _ => rfl⟩⟩

theorem Apart.trans (s t u : State) (h : Apart p s t) (k : Apart p t u) : Apart p s u :=
  ⟨k.1.trans h.1, k.2.1.trans h.2.1, fun n => ⟨(k.2.2 n).1.trans (h.2.2 n).1, fun hn =>
    ((k.2.2 n).2 (by rw [(h.2.2 n).1]; exact hn)).trans ((h.2.2 n).2 hn)⟩⟩

theorem apart_modPort (h : q ≠ p) (f : Port → Port) : Apart p s (s.modPort q f) :=
  ⟨State.modPort_other s q p f h.symm, rfl, fun _ => ⟨rfl, fun _ => rfl⟩⟩

theorem apart_modArb (h : q ≠ p) (f : Arbiter → Arbiter) : Apart p s (s.modArb q f) :=
  ⟨rfl, State.modArb_other s q p f h.symm, fun _ => ⟨rfl, fun _ => rfl⟩⟩

/-- A notice of a screen that is not routed to `p`. -/
theorem apart_modNotice {n : Fin 8} (h : s.screens[n].ctx.route.map (·.port) ≠ some p) (f : NoticeUnit → NoticeUnit) :
    Apart p s (s.modNotice n f) := by
  refine ⟨rfl, rfl, fun m => ?_⟩
  rw [State.modNotice_eq]
  by_cases hm : m = n
  · subst hm
    rw [modScreen_at]
    exact ⟨rfl, fun hp => absurd hp h⟩
  · rw [show (s.modScreen n fun x => { x with notice := f x.notice }).screens[m] = s.screens[m] from State.modScreen_other s n m _ hm]
    exact ⟨rfl, fun _ => rfl⟩

/-- A grant of another port is to its response queue, or to a screen routed there (R169, R172). -/
theorem apart_grant (h : q ≠ p) : Apart p s (s.grant q) := by
  obtain hsame | ⟨-, r, f, hr, hf, hgrant⟩ := grant_cases s q
  · rw [hsame]
    exact .refl s
  · rw [hgrant]
    cases r with
    | resp => exact .trans _ _ _ (apart_modArb h f) (apart_modArb h _)
    | screen n =>
      obtain ⟨route, u, hroute, hport, hu, -⟩ := (waits_iff s q (.screen n)).1 hr
      rw [occupy_screen hu]
      refine .trans _ _ _ (apart_modArb h _) (apart_modNotice ?_ _)
      rw [State.modArb_screens, hroute, Option.map_some, hport]
      exact fun he => h (Option.some.inj he)

theorem apart_sendReturn (index : Nat) (h : q ≠ p) : Apart p s (s.sendReturn index q) := by
  unfold State.sendReturn
  split
  · exact apart_modPort h _
  · exact .trans _ _ _ (apart_grant h) (.trans _ _ _ (apart_modPort h _) (apart_modArb h _))

/-! ### The sending of a port -/

theorem sendReturn_down (index : Nat) (h : s.ports[p].state = .down) : (s.sendReturn index p).ports[p].sent = none ∧
    (s.sendReturn index p).arbiters[p] = s.arbiters[p] := by
  have hsend : s.sendReturn index p = s.modPort p fun x => { x with sent := none } := if_pos h
  rw [hsend, modPort_at]
  exact ⟨rfl, rfl⟩

/-- A port that is not DOWN sends the next word of its channel, after a grant where one is due (R8, R170, R172). -/
theorem sendReturn_up (index : Nat) (h : s.ports[p].state ≠ .down) : let a := (s.grant p).arbiters[p]
    let t := s.sendReturn index p
    t.ports[p].sent = some (s.ports[p].returnFrame index a.nextWord.1 a.nextWord.2) ∧ t.arbiters[p] = a.advance ∧
      t.screens = (s.grant p).screens := by
  intro a t
  have hsend : t = ((s.grant p).modPort p fun x => { x with sent := some (x.returnFrame index a.nextWord.1 a.nextWord.2) }).modArb p
      Arbiter.advance := if_neg h
  rw [hsend]
  refine ⟨?_, modArb_at _ p _, rfl⟩
  rw [State.modArb_ports, modPort_at, grant_ports]

end

/-- A return frame by its fields (R8, R190). -/
theorem returnFrame_fields (x : Port) {index : Nat} (h : index ≤ 47) (code : ServiceCode) (word : Word) :
    let g := x.returnFrame index code word
    GoodFrame g index ∧ headerByte g.header = 0 ∧ g.slots[0] = statusSlot x ∧ headerCode g.header = code ∧ g.service = word :=
  ⟨⟨headerSync_mkHeader _ _ _ _, frameCheck_mkFrame _ _ _, headerIndex_mkHeader _ _ _ _ h⟩, headerByte_mkHeader _ _ _ _, rfl,
    headerCode_mkHeader _ _ _ _, rfl⟩

section
variable {a : Arbiter} {m : Sending} {w : Word}

theorem nextWord_free (h : a.channel = none) : a.nextWord = (.idle, 0) := by
  rw [Arbiter.nextWord, h]

/-- The next word of a message (R172, R193). -/
theorem nextWord_word (h : a.channel = some m) (hw : m.words[m.sent]? = some w) :
    a.nextWord = (if m.sent = 0 then .start else if m.sent + 1 = m.words.length then .fin else .data, w) ∧
    a.advance.channel = some { m with sent := m.sent + 1 } := by
  obtain ⟨hlt, hget⟩ := List.getElem?_eq_some_iff.1 hw
  refine ⟨?_, ?_⟩
  · rw [Arbiter.nextWord, h]
    simp only [hlt, if_true, wordCode, beq_iff_eq, List.getD_eq_getElem?_getD, hw, Option.getD_some]
  · rw [Arbiter.advance, h, Option.map_some, Nat.min_eq_right hlt]

theorem advance_channel (h : a.advance.channel = some m) :
    ∃ k, a.channel = some k ∧ m = { k with sent := min k.words.length (k.sent + 1) } := by
  obtain ⟨k, hk, hm⟩ := Option.map_eq_some_iff.1 h
  exact ⟨k, hk, hm.symm⟩

end

/-! ### Sent messages leave their channels -/

section
variable {s : State} {p : Fin 12}

theorem freeChannel_arbiter (s : State) (p q : Fin 12) (m : Sending) (lost : Bool) :
    (s.freeChannel p m lost).arbiters[q] = (s.modArb p fun a => { a with channel := none }).arbiters[q] := by
  unfold State.freeChannel
  cases m.owner with
  | resp =>
    simp only
    split <;> rfl
  | screen n => rfl

/-- The channel of a port after what is due: free where all its message has been sent (R172). -/
theorem messageSent_channel (s : State) (p : Fin 12) :
    (∀ q : Fin 12, q ≠ p → (s.messageSent q).arbiters[p] = s.arbiters[p]) ∧
    ((∀ m, s.arbiters[p].channel = some m → m.words.length ≤ m.sent) →
      (s.messageSent p).arbiters[p] = { s.arbiters[p] with channel := none }) ∧
    (∀ m, s.arbiters[p].channel = some m → m.sent < m.words.length → (s.messageSent p).arbiters[p] = s.arbiters[p]) := by
  refine ⟨fun q hq => ?_, fun h => ?_, fun m hm hleft => by rw [messageSent_unfinished hm hleft]⟩
  · unfold State.messageSent
    split
    · split
      · rw [freeChannel_arbiter]
        exact State.modArb_other s q p _ hq.symm
      · rfl
    · rfl
  · cases hc : s.arbiters[p].channel with
    | none =>
      rw [messageSent_free hc, ← hc]
    | some m =>
      rw [messageSent_finished hc (h m hc), freeChannel_arbiter, modArb_at]

theorem settleDue_arbiter (hr : s.resetPending = none) (p : Fin 12) :
    ((∀ m, s.arbiters[p].channel = some m → m.words.length ≤ m.sent) →
      s.settleDue.arbiters[p] = { s.arbiters[p] with channel := none }) ∧
    (∀ m, s.arbiters[p].channel = some m → m.sent < m.words.length → s.settleDue.arbiters[p] = s.arbiters[p]) := by
  have hothers (q : Fin 12) (t : State) (hq : q ≠ p) : (t.messageSent q).arbiters[p] = t.arbiters[p] := (messageSent_channel t p).1 q hq
  obtain ⟨u, hu, ht⟩ := forEach_once (R := fun s t => t.arbiters[p] = s.arbiters[p]) (fun _ => rfl) (fun _ _ _ h k => k.trans h)
    hothers (List.nodup_finRange 12) (List.mem_finRange p) s
  have harbiters : s.settleDue.arbiters[p] = (u.messageSent p).arbiters[p] := by
    have hscreens := (screensOnly_forScreens screensOnly_choose (forScreens State.endCrossfade (forPorts State.messageSent s))).links.2.2
    have hended := (screensOnly_forScreens screensOnly_endCrossfade (forPorts State.messageSent s)).links.2.2
    rw [settleDue_eq hr, hscreens, hended]
    exact ht
  obtain ⟨-, hfinished, hunfinished⟩ := messageSent_channel u p
  rw [harbiters]
  rw [show u.arbiters[p] = s.arbiters[p] from hu] at hfinished hunfinished
  exact ⟨hfinished, hunfinished⟩

/-- No channel holds a message of screen `n`. -/
def NoMessageOf (n : Fin 8) (s : State) : Prop := ∀ (q : Fin 12) (m : Sending), s.arbiters[q].channel = some m → m.owner ≠ .screen n

/-- The message of another requester that leaves its channel reaches no notice of this screen (R172). -/
theorem messageSent_notice {n : Fin 8} (p : Fin 12) (h : NoMessageOf n s) :
    NoMessageOf n (s.messageSent p) ∧ (s.messageSent p).screens[n].notice = s.screens[n].notice := by
  cases hc : s.arbiters[p].channel with
  | none => rw [messageSent_free hc]; exact ⟨h, rfl⟩
  | some m =>
    by_cases hleft : m.words.length ≤ m.sent
    · rw [messageSent_finished hc hleft]
      refine ⟨fun q k hk => ?_, ?_⟩
      · rw [freeChannel_arbiter] at hk
        by_cases hq : q = p
        · subst hq
          rw [modArb_at] at hk
          cases hk
        · rw [show (s.modArb p fun a => { a with channel := none }).arbiters[q] = s.arbiters[q] from State.modArb_other s p q _ hq] at hk
          exact h q k hk
      · cases ho : m.owner with
        | resp => rw [freeChannel_resp ho]; rfl
        | screen k =>
          have hne : n ≠ k := fun e => h p m hc (by rw [ho, e])
          rw [freeChannel_screen ho]
          exact congrArg Screen.notice (State.modScreen_other _ k n _ hne)
    · rw [messageSent_unfinished hc (Nat.not_le.1 hleft)]
      exact ⟨h, rfl⟩

/-- A notice that waits, and is on no channel, still waits after what is due (R162, R172). -/
theorem settleDue_notice (hr : s.resetPending = none) {n : Fin 8} {u : Unsent} (hu : s.screens[n].notice.unsent = some u)
    (h : NoMessageOf n s) : s.settleDue.screens[n].notice = s.screens[n].notice := by
  have hsent : NoMessageOf n s → NoMessageOf n (forPorts State.messageSent s) ∧
      (forPorts State.messageSent s).screens[n].notice = s.screens[n].notice :=
    forEach_keeps (R := fun s t => NoMessageOf n s → NoMessageOf n t ∧ t.screens[n].notice = s.screens[n].notice)
      (fun _ h => ⟨h, rfl⟩) (fun _ _ _ h k hs => ⟨(k (h hs).1).1, (k (h hs).1).2.trans (h hs).2⟩) _
      (fun p t ht => messageSent_notice p ht) _ s
  obtain ⟨-, hnotice⟩ := hsent h
  rw [settleDue_eq hr]
  generalize forPorts State.messageSent s = v at hnotice
  have hended : (forScreens State.endCrossfade v).screens[n].notice = s.screens[n].notice := by
    rw [forScreens_endCrossfade, ← hnotice]
    simp
  generalize forScreens State.endCrossfade v = e at hended
  have hchosen : e.screens[n].notice.unsent ≠ none → (forScreens State.choose e).screens[n].notice = e.screens[n].notice :=
    forEach_keeps (R := fun s t => s.screens[n].notice.unsent ≠ none → t.screens[n].notice = s.screens[n].notice)
      (fun _ _ => rfl) (fun _ _ _ h k hs => (k (by rw [h hs]; exact hs)).trans (h hs)) _ (fun k t ht => by
        unfold State.choose
        simp only
        split
        · next hnone _ =>
          have hne : n ≠ k := fun e => ht (by rw [e]; exact hnone)
          exact congrArg Screen.notice (State.modScreen_other t k n _ hne)
        · rfl) _ e
  rw [hchosen (by rw [hended, hu]; exact Option.some_ne_none u), hended]

end

/-! ### The whole frame -/

/-- Port `p` sends once in a master frame, from a state `u` in which its port has been read, what was due at its arbiter is settled,
and the screens routed to it have the notices that stood then (R8, R12, R27). -/
theorem masterFrame_sends {s : State} (hr : s.resetPending = none) (p : Fin 12) : ∃ u : State,
    u.ports[p] = s.ports[p].afterRead ∧ u.arbiters[p] = s.settleDue.arbiters[p] ∧ (∀ n : Fin 8, u.screens[n].ctx = s.screens[n].ctx) ∧
    (∀ n : Fin 8, s.screens[n].ctx.route.map (·.port) = some p → u.screens[n].notice = s.settleDue.screens[n].notice) ∧
    Apart p (u.sendReturn s.frameIndex p) s.masterFrame := by
  have hctx (n : Fin 8) : s.settleDue.screens[n].ctx = s.screens[n].ctx := by rw [(settleDue_screen hr n).record]
  obtain ⟨hrest, -⟩ := channelsOnly_settleDue hr
  have hsame : s.settleDue.ports = s.ports ∧ s.settleDue.frameIndex = s.frameIndex := by
    rw [hrest]
    exact ⟨rfl, rfl⟩
  unfold State.masterFrame
  generalize s.settleDue = d at hctx hsame ⊢
  simp only
  obtain ⟨hports, hindex⟩ := hsame
  have hread := readPorts_ports d p
  have hasideRead : Aside d (forPorts State.readPort d) := forEach_keeps .refl .trans _ aside_readPort _ d
  generalize forPorts State.readPort d = r at hread hasideRead ⊢
  generalize (Vector.ofFn fun m => inputsOf (d.screenSlots m) : Vector Inputs 8) = inputs
  have hplayed := playScreens_ports r inputs
  have hasidePlayed : Aside r (forScreens (fun m t => t.playScreen m inputs[m]) r) :=
    forEach_keeps .refl .trans _ (fun m t => aside_playScreen t m inputs[m]) _ r
  generalize forScreens (fun m t => t.playScreen m inputs[m]) r = v at hplayed hasidePlayed ⊢
  have hforward : (forScreens (State.sendForward d.frameIndex) v).ports = v.ports := by rw [sendForwards_eq]
  have hasideForward : Aside v (forScreens (State.sendForward d.frameIndex) v) :=
    forEach_keeps .refl .trans _ (aside_sendForward _) _ v
  generalize forScreens (State.sendForward d.frameIndex) v = w at hforward hasideForward ⊢
  obtain ⟨haside, hscreens⟩ := Aside.trans _ _ _ (Aside.trans _ _ _ hasideRead hasidePlayed) hasideForward
  obtain ⟨u, ⟨huport, huarbiter, huscreens⟩, ht⟩ := forEach_once (f := State.sendReturn d.frameIndex) (R := Apart p) .refl .trans
    (fun q t hq => apart_sendReturn d.frameIndex hq) (List.nodup_finRange 12) (List.mem_finRange p) w
  have harbiter : w.arbiters[p] = d.arbiters[p] := by rw [haside]
  have hport : w.ports[p] = s.ports[p].afterRead := by rw [hforward, hplayed, hread, hports]
  refine ⟨u, huport.trans hport, huarbiter.trans harbiter, fun n => (huscreens n).1.trans ((hscreens n).1.trans (hctx n)),
    fun n hn => ?_, ?_⟩
  · refine ((huscreens n).2 ?_).trans (hscreens n).2
    rw [(hscreens n).1, hctx]
    exact hn
  · have hsent : Apart p (u.sendReturn d.frameIndex p) (forPorts (State.sendReturn d.frameIndex) w) := ht
    rw [← hindex]
    generalize forPorts (State.sendReturn d.frameIndex) w = t at hsent
    exact .trans _ _ _ hsent ⟨rfl, rfl, fun _ => ⟨rfl, fun _ => rfl⟩⟩

/-- From `s` to `t`, what is kept by the part as a whole stays. -/
theorem Aside.links {s t : State} (h : Aside s t) : LinksOnly s t := by
  have harbiters : t.arbiters = s.arbiters := by rw [h.1]
  unfold LinksOnly
  rw [harbiters]
  exact h.1

theorem LinksOnly.refl (s : State) : LinksOnly s s := rfl

theorem linksOnly_occupy (s : State) (p : Fin 12) (q : Requester) : LinksOnly s (s.occupy p q) := by
  unfold State.occupy
  cases q with
  | resp => exact rfl
  | screen m =>
    simp only
    split <;> exact rfl

theorem linksOnly_grant (s : State) (p : Fin 12) : LinksOnly s (s.grant p) := by
  obtain hsame | ⟨-, q, f, -, -, hgrant⟩ := grant_cases s p
  · rw [hsame]
    exact .refl s
  · rw [hgrant]
    exact LinksOnly.trans (t := s.modArb p f) rfl (linksOnly_occupy _ p q)

theorem linksOnly_sendReturn (index : Nat) (p : Fin 12) (s : State) : LinksOnly s (s.sendReturn index p) := by
  unfold State.sendReturn
  split
  · exact rfl
  · exact LinksOnly.trans (linksOnly_grant s p) rfl

theorem masterFrame_links {s : State} (hr : s.resetPending = none) : let t := s.masterFrame
    t = { s with frameIndex := (s.frameIndex + 1) % 48, ports := t.ports, arbiters := t.arbiters, screens := t.screens
                 lines := t.lines } := by
  obtain ⟨hrest, -⟩ := channelsOnly_settleDue hr
  have hports : s.settleDue.ports = s.ports := by rw [hrest]
  have hdue : LinksOnly s s.settleDue := by
    unfold LinksOnly
    rw [hports]
    exact hrest
  unfold State.masterFrame
  generalize s.settleDue = d at hdue ⊢
  simp only
  generalize (Vector.ofFn fun m => inputsOf (d.screenSlots m) : Vector Inputs 8) = inputs
  have hasideRead : Aside d (forPorts State.readPort d) := forEach_keeps .refl .trans _ aside_readPort _ d
  generalize forPorts State.readPort d = r at hasideRead ⊢
  have hasidePlayed : Aside r (forScreens (fun m t => t.playScreen m inputs[m]) r) :=
    forEach_keeps .refl .trans _ (fun m t => aside_playScreen t m inputs[m]) _ r
  generalize forScreens (fun m t => t.playScreen m inputs[m]) r = v at hasidePlayed ⊢
  have hasideForward : Aside v (forScreens (State.sendForward d.frameIndex) v) :=
    forEach_keeps .refl .trans _ (aside_sendForward _) _ v
  generalize forScreens (State.sendForward d.frameIndex) v = w at hasideForward ⊢
  have hsent : LinksOnly w (forPorts (State.sendReturn d.frameIndex) w) :=
    forEach_keeps .refl (fun _ _ _ => .trans) _ (linksOnly_sendReturn d.frameIndex) _ w
  have hall := (hdue.trans (Aside.trans _ _ _ (Aside.trans _ _ _ hasideRead hasidePlayed) hasideForward).links).trans hsent
  have hindex : d.frameIndex = s.frameIndex := by rw [hdue]
  generalize forPorts (State.sendReturn d.frameIndex) w = t at hall ⊢
  rw [hindex]
  exact congrArg (fun x : State => { x with frameIndex := (s.frameIndex + 1) % 48 }) hall

/-! ### Forward frames -/

/-- A forward frame by its fields (R27 to R29). -/
theorem forwardFrame_fields (x : Screen) {index : Nat} (h : index ≤ 47) : let g := x.forwardFrame index
    frameCheck g = g.check ∧ headerIndex g.header = index ∧ headerCode g.header = .idle ∧ g.service = 0 ∧
    (x.ctx.state = .dark → headerSync g.header = 0x58 ∧ ∀ c : Fin 16, g.slots[c] = 0) ∧
    (x.ctx.state ≠ .dark → headerSync g.header = 0xA7 ∧ ∀ c : Fin 16, g.slots[c] = BitVec.ofInt 24 x.eng.outputs[c]) ∧
    (headerByte g.header).toNat = (if index = 0 then (if x.link.echo then 128 else 0) + screenStateCode x.ctx.state else 0) := by
  refine ⟨frameCheck_mkFrame _ _ _, headerIndex_mkHeader _ _ _ _ h, headerCode_mkHeader _ _ _ _, rfl, fun hst => ⟨?_, fun c => ?_⟩,
    fun hst => ⟨?_, fun c => ?_⟩, ?_⟩
  · exact (headerSync_mkHeader _ _ _ _).trans (if_pos hst)
  · simp only [Screen.forwardFrame, mkFrame, hst]
    simp [silence]
  · exact (headerSync_mkHeader _ _ _ _).trans (if_neg hst)
  · have hslots : (x.forwardFrame index).slots = Vector.ofFn fun c => BitVec.ofInt 24 x.eng.outputs[c] := by
      unfold Screen.forwardFrame
      cases hs : x.ctx.state with
      | dark => exact absurd hs hst
      | standby | running => rfl
    refine (congrArg (·[c]) hslots).trans ?_
    simp
  · refine (congrArg BitVec.toNat (headerByte_mkHeader _ _ _ _)).trans ?_
    split
    · exact forwardByte_toNat _ _
    · rfl

/-- What a screen keeps through a master frame, and the forward frame that its port sends (R27 to R29). -/
theorem FrameMakes.sends {slips : Prop} {index : Nat} {x z : Screen} (h : FrameMakes slips index x z) (hi : index ≤ 47) :
    z.ctx = x.ctx ∧ z.cues = x.cues ∧ z.quiet = x.quiet ∧ ∃ g, z.link = { x.link with sent := some g } ∧
      frameCheck g = g.check ∧ headerIndex g.header = index ∧ headerCode g.header = .idle ∧ g.service = 0 ∧
      (x.ctx.state = .dark → headerSync g.header = 0x58 ∧ ∀ c : Fin 16, g.slots[c] = 0) ∧
      (x.ctx.state ≠ .dark → headerSync g.header = 0xA7 ∧ ∀ c : Fin 16, g.slots[c] = BitVec.ofInt 24 z.eng.outputs[c]) ∧
      (headerByte g.header).toNat = (if index = 0 then (if x.link.echo then 128 else 0) + screenStateCode x.ctx.state else 0) := by
  obtain ⟨settled, heard, played, ins, hsettled, hhears, hpasses, hplayed, hz⟩ := h
  have hheard : heard = { settled with mon := heard.mon } := by
    by_cases hslip : slips
    · exact (hhears hslip).2
    · rw [hpasses hslip]
  obtain ⟨meters, hframe⟩ := frame_rest ins heard
  have hkept : played.ctx = x.ctx ∧ played.cues = x.cues ∧ played.quiet = x.quiet ∧ played.link = x.link := by
    rw [hplayed.record, hframe, hheard, hsettled.record]
    exact ⟨rfl, rfl, rfl, rfl⟩
  obtain ⟨hctx, hcues, hquiet, hlink⟩ := hkept
  have hfields := forwardFrame_fields played hi
  rw [hctx, hlink] at hfields
  have houtputs : z.eng = played.eng := by rw [hz]
  rw [houtputs]
  refine ⟨by rw [hz]; exact hctx, by rw [hz]; exact hcues, by rw [hz]; exact hquiet, _, ?_, hfields⟩
  rw [hz, hlink]

/-! ### The statement -/

section
variable {s u t : State} {p : Fin 12}

/-- A port that is not DOWN, by its return frame: the status slot is that of the port after it, and the service word the next one of
its channel (R8, R172, R190). -/
theorem return_sent {index : Nat} (hi : index ≤ 47) (hup : u.ports[p].state ≠ .down) (ht : Apart p (u.sendReturn index p) t)
    (hport : ∃ sent, t.ports[p] = { u.ports[p] with sent := sent }) : ∃ g, t.ports[p].sent = some g ∧ GoodFrame g index ∧
      headerByte g.header = 0 ∧ g.slots[0] = statusSlot t.ports[p] ∧ headerCode g.header = (u.grant p).arbiters[p].nextWord.1 ∧
      g.service = (u.grant p).arbiters[p].nextWord.2 ∧ t.arbiters[p] = (u.grant p).arbiters[p].advance := by
  obtain ⟨hsent, harbiter, -⟩ := sendReturn_up index hup
  obtain ⟨hgood, hbyte, hslot, hcode, hword⟩ := returnFrame_fields u.ports[p] hi (u.grant p).arbiters[p].nextWord.1
    (u.grant p).arbiters[p].nextWord.2
  have hstatus : statusSlot t.ports[p] = statusSlot u.ports[p] := by
    obtain ⟨sent, hsame⟩ := hport
    rw [hsame]
    rfl
  refine ⟨_, by rw [ht.1, hsent], hgood, hbyte, ?_, hcode, hword, ht.2.1.trans harbiter⟩
  rw [hstatus]
  exact hslot

/-- The only requester that waits is granted (R170, R171). -/
theorem grant_only (hopen : u.ports[p].state = .locked ∧ u.arbiters[p].channel = none) {q : Requester} (hq : u.waits p q = true)
    (honly : ∀ r, u.waits p r = true → r = q) : ∃ f : Arbiter → Arbiter, (∀ a, (f a).queue = a.queue) ∧
      u.grant p = (u.modArb p f).occupy p q := by
  obtain ⟨r, f, hr, hf, hgrant⟩ := grant_granted hopen hq
  exact ⟨f, hf, honly r hr ▸ hgrant⟩

theorem afterRead_state (x : Port) : x.afterRead.state = x.state := by
  unfold Port.afterRead
  split
  · split <;> rfl
  · rfl

/-- A channel is free after the frame only where it was free at the sending, and then the port sends IDLE (R172). -/
theorem advance_free {a : Arbiter} (h : a.advance.channel = none) : a.nextWord = (.idle, 0) :=
  nextWord_free (Option.map_eq_none_iff.1 h)

/-- A message that takes the channel sends its first word in the same frame (R170, R172). -/
theorem grant_firstWord {m : Sending} {w : Word} (hfree : u.arbiters[p].channel = none)
    (hm : (u.grant p).arbiters[p].advance.channel = some m) (hw : m.words[0]? = some w) :
    m.sent = 1 ∧ (u.grant p).arbiters[p].nextWord = (.start, w) := by
  obtain ⟨k, hk, rfl⟩ := advance_channel hm
  have hfresh := grant_fresh hfree hk
  have hword : k.words[k.sent]? = some w := by rw [hfresh]; exact hw
  obtain ⟨hnext, hchannel⟩ := nextWord_word hk hword
  rw [hm] at hchannel
  refine ⟨(congrArg Sending.sent (Option.some.inj hchannel)).trans (by rw [hfresh]), ?_⟩
  rw [hnext, if_pos hfresh]

/-- The response queue alone waits: its oldest response leaves it and sends its first word (R168, R170, R172). -/
theorem resp_granted {r : Response} {rest : List Response} (hopen : u.ports[p].state = .locked ∧ u.arbiters[p].channel = none)
    (hno : ∀ n : Fin 8, u.screens[n].ctx.route.map (·.port) ≠ some p) (hwords : r.words ≠ [])
    (hqueue : u.arbiters[p].queue = r :: rest) :
    (u.grant p).arbiters[p].advance.queue = rest ∧ (u.grant p).arbiters[p].advance.channel =
      some { owner := .resp, words := r.words, sent := 1, forReset := r.forReset } := by
  have hwaits : u.waits p .resp = true := (waits_iff u p .resp).2 (by rw [Waits, hqueue]; exact List.cons_ne_nil r rest)
  have honly (q : Requester) (hq : u.waits p q = true) : q = .resp := by
    cases q with
    | resp => rfl
    | screen n =>
      obtain ⟨route, -, hroute, hport, -⟩ := (waits_iff u p (.screen n)).1 hq
      exact absurd (by rw [hroute, Option.map_some, hport]) (hno n)
  obtain ⟨f, hf, hgrant⟩ := grant_only hopen hwaits honly
  have hone : min r.words.length (0 + 1) = 1 := Nat.min_eq_right (List.length_pos_iff.2 hwords)
  rw [hgrant, occupy_resp (by rw [hf, hqueue])]
  refine ⟨rfl, ?_⟩
  simp only [Arbiter.advance, Option.map_some, hone]

/-- One screen's notice alone waits: it takes the channel and sends its first word (R169, R170, R172). -/
theorem screen_granted {n : Fin 8} {v : Unsent} (hopen : u.ports[p].state = .locked ∧ u.arbiters[p].channel = none)
    (hqueue : u.arbiters[p].queue = []) (hroutes : ∀ m : Fin 8, u.screens[m].ctx.route.map (·.port) = some p ↔ m = n)
    (hunsent : u.screens[n].notice.unsent = some v) (hwaiting : v.sending = false) (hwords : v.words ≠ []) :
    (u.grant p).arbiters[p].advance.channel = some { owner := .screen n, words := v.words, sent := 1, forReset := false } ∧
      (u.grant p).screens[n].notice.unsent = some { v with sending := true } := by
  have hwaits : u.waits p (.screen n) = true := by
    obtain ⟨route, hroute, hport⟩ := Option.map_eq_some_iff.1 ((hroutes n).2 rfl)
    exact (waits_iff u p (.screen n)).2 ⟨route, v, hroute, hport, hunsent, hwaiting⟩
  have honly (q : Requester) (hq : u.waits p q = true) : q = .screen n := by
    cases q with
    | resp => exact absurd hqueue ((waits_iff u p .resp).1 hq)
    | screen m =>
      obtain ⟨route, -, hroute, hport, -⟩ := (waits_iff u p (.screen m)).1 hq
      rw [(hroutes m).1 (by rw [hroute, Option.map_some, hport])]
  obtain ⟨f, -, hgrant⟩ := grant_only hopen hwaits honly
  have hone : min v.words.length (0 + 1) = 1 := Nat.min_eq_right (List.length_pos_iff.2 hwords)
  rw [hgrant, occupy_screen hunsent, State.modNotice_eq, modScreen_at, State.modScreen_arbiters, modArb_at]
  refine ⟨?_, rfl⟩
  simp only [Arbiter.advance, Option.map_some, hone]

end

/-- Settles O45: what is kept of the part (`masterFrame_links`), what each program port sends (`masterFrame_sends`, `return_sent`) with
the grants at it (`grant_firstWord`, `resp_granted`, `screen_granted`), and what each screen port sends (`FrameMakes.sends`). -/
theorem masterFrameSendsOnEveryPort : Obligations.MasterFrameSendsOnEveryPort := by
  intro s hp hr hi
  have hlinks := masterFrame_links hr
  have hscreens := masterFrame_screen hr
  have hports := masterFrame_port hr
  have hsends := masterFrame_sends hr
  refine ⟨s.masterFrame, live_on hp _, ?_⟩
  generalize s.masterFrame = t at hlinks hscreens hports hsends ⊢
  have hindex : t.frameIndex = (s.frameIndex + 1) % 48 := by rw [hlinks]
  refine ⟨hindex, by rw [hindex]; exact hlinks, fun p => ?_, fun p hsent => ?_, fun n => (hscreens n).sends hi⟩
  · obtain ⟨u, hport, harbiter, -, -, ht⟩ := hsends p
    have hstate : u.ports[p].state = s.ports[p].state := by rw [hport, afterRead_state]
    refine ⟨by rw [hports p]; exact afterRead_state _, fun hdown => ?_, fun hup => ?_⟩
    · rw [ht.1]
      exact (sendReturn_down s.frameIndex (hstate.trans hdown)).1
    · obtain ⟨g, hg, hgood, hbyte, hslot, hcode, hword, hadvance⟩ := return_sent hi (by rw [hstate]; exact hup) ht
        ⟨_, (hports p).trans (by rw [hport])⟩
      refine ⟨g, hg, hgood, hbyte, hslot, fun hfree => ?_, fun m w hm hw => ?_⟩
      · rw [hadvance] at hfree
        rw [hcode, hword, advance_free hfree]
        exact ⟨rfl, rfl⟩
      · have hkept : u.arbiters[p] = s.arbiters[p] :=
          harbiter.trans ((settleDue_arbiter hr p).2 m hm (List.getElem?_eq_some_iff.1 hw).1)
        have hbusy : u.arbiters[p].channel = some m := by rw [hkept, hm]
        have hgrant : u.grant p = u := grant_closed (.inr (by rw [hbusy]; exact Option.some_ne_none m))
        rw [hgrant] at hcode hword hadvance
        obtain ⟨hnext, hchannel⟩ := nextWord_word hbusy hw
        rw [hcode, hword, hnext, hadvance]
        exact ⟨rfl, rfl, hchannel⟩
  · obtain ⟨u, hport, harbiter, hctx, hnotice, ht⟩ := hsends p
    have hstate : u.ports[p].state = s.ports[p].state := by rw [hport, afterRead_state]
    have hsettled : u.arbiters[p] = { s.arbiters[p] with channel := none } := harbiter.trans ((settleDue_arbiter hr p).1 hsent)
    have hfree : u.arbiters[p].channel = none := by rw [hsettled]
    have hup (hl : s.ports[p].state = .locked) : u.ports[p].state ≠ .down := by
      rw [hstate, hl]
      decide
    have hopen (hl : s.ports[p].state = .locked) : u.ports[p].state = .locked ∧ u.arbiters[p].channel = none :=
      ⟨hstate.trans hl, hfree⟩
    refine ⟨fun m w hm hw => ?_, fun r rest hl hno hwords hqueue => ?_,
      fun n v hl hqueue hroutes hunsent hwaiting hwords hnone => ?_⟩
    · by_cases hdown : u.ports[p].state = .down
      · rw [ht.2.1, (sendReturn_down s.frameIndex hdown).2, hfree] at hm
        cases hm
      · obtain ⟨g, hg, -, -, -, hcode, hword, hadvance⟩ := return_sent hi hdown ht ⟨_, (hports p).trans (by rw [hport])⟩
        rw [hadvance] at hm
        obtain ⟨hone, hnext⟩ := grant_firstWord hfree hm hw
        rw [hnext] at hcode hword
        exact ⟨g, hg, hone, hword, hcode⟩
    · rw [ht.2.1, (sendReturn_up s.frameIndex (hup hl)).2.1]
      exact resp_granted (hopen hl) (fun n => by rw [hctx]; exact hno n) hwords (by rw [hsettled]; exact hqueue)
    · have hroute : s.screens[n].ctx.route.map (·.port) = some p := (hroutes n).2 rfl
      have hstays : u.screens[n].notice = s.screens[n].notice := (hnotice n hroute).trans (settleDue_notice hr hunsent hnone)
      obtain ⟨-, hadvance, hsame⟩ := sendReturn_up s.frameIndex (hup hl)
      obtain ⟨hchannel, hmarked⟩ := screen_granted (hopen hl) (by rw [hsettled]; exact hqueue)
        (fun m => by rw [hctx]; exact hroutes m) (by rw [hstays]; exact hunsent) hwaiting hwords
      obtain ⟨-, harb, hothers⟩ := ht
      have hkept : t.screens[n].notice = (u.sendReturn s.frameIndex p).screens[n].notice := by
        refine (hothers n).2 ?_
        rw [(noticesOnly_sendReturn s.frameIndex p u n), hctx]
        exact hroute
      rw [harb, hadvance, hkept]
      refine ⟨hchannel, ?_⟩
      rw [← hmarked]
      exact congrArg (fun v : Vector Screen 8 => v[n].notice.unsent) hsame

end Sys2Proof.Machine
end
